-- ==== Sys2Proof/Word.lean ====
section
/-! DEFINITION. The words of the block: a line level, the 24-bit raw frame, the 16-bit accumulator and
result, the 2-bit command code (spec/00_scope.md R9, R10; spec/10_state.md R21 to R23, R37). -/

namespace Sys2Proof

/-- The level of a line: `true` is high, `false` is low (R10). -/
abbrev Level := Bool

/-- The 24 sampled bits of one frame; bit `i` is the `i`-th sampled bit, of weight `2^i` (R9, R21, R85). -/
abbrev RawFrame := BitVec 24

/-- The 16-bit magnitude accumulator, and the signed result in two's complement (R22, R23, R86). -/
abbrev Half := BitVec 16

/-- The command code on `cmd[1:0]` (R37, R93). -/
abbrev CmdCode := BitVec 2

end Sys2Proof
end

