-- ==== Sys2Proof/Config.lean ====
section
/-! DEFINITION. What is fixed for one machine: the five durations (spec/00_scope.md R6), the tick period
(R7), the constants of the frame (R8), and the open timing of the caliper's reference waveform
(spec/70_reset_and_hazards.md R296, spec/92_eei_decisions.md D30); and what the two outside agents choose freely
(spec/00_scope.md R5, R13). The durations and the tick period are arguments of the model:
`State` carries them, so that a statement about every state is a statement about every choice of them. -/

namespace Sys2Proof

/-- The five durations, in ticks, each at least 1 (R6; the bound is `Params.wf`), and the tick period (R7). -/
structure Params where
  /-- `T_POWEROFF`: both power-off timers. -/
  tPowerOff : Nat
  /-- `T_ALIGN`: the alignment timer. -/
  tAlign : Nat
  /-- `T_RETRY`: the sleep after a misaligned pass. -/
  tRetry : Nat
  /-- `T_PREPOS`: the pre-positioning sleep. -/
  tPrepos : Nat
  /-- `T_SETTLE`: the settle delay before the standard flag. -/
  tSettle : Nat
  /-- `T_TICK`: the tick period, in microseconds (R7; the unit is the model's choice, log entry 15). No rule reads it. -/
  tTick : Nat
  deriving DecidableEq, Repr

/-- The defaults, at the default tick of 1 µs (R6, R7). -/
def Params.pDefault : Params :=
  { tPowerOff := 500000, tAlign := 30000, tRetry := 20000, tPrepos := 110000, tSettle := 280,
    tTick := 1 }

/-- The spec's own scaling for short traces, `P_100us`, whose tick is 100 µs (R8). -/
def Params.p100us : Params :=
  { tPowerOff := 5000, tAlign := 300, tRetry := 200, tPrepos := 1100, tSettle := 3, tTick := 100 }

/-- `N_BITS`: the frame length (R8). -/
def frameBits : Nat := 24

/-- `N_MAG`: the frame bits 0 to 15 are the magnitude (R8). -/
def magnitudeBits : Nat := 16

/-- `SIGN_IDX`: the frame bit that carries the sign (R8). -/
def signIndex : Nat := 21

/-- The open parameters of the reference waveform `W(W_LO, W_HI, W_GAP)` (R296) and the `hold` of the spec's
frame generator `FR` (spec/95_test_vectors.md, section 1): how long the caliper keeps the flag on the data
line after the clock's return to high. No rule of the block reads them. -/
structure Waveform where
  wLo : Nat
  wHi : Nat
  wGap : Nat
  hold : Nat
  deriving DecidableEq, Repr

/-- `W_FRAME`, the length of a frame on the wire (R296). -/
def Waveform.frameTicks (w : Waveform) : Nat := 23 * (w.wLo + w.wHi) + w.wLo

/-- How long the flag is on the data line in the gap after a frame: as long as the generator holds it, and in any case
up to the tick `F_23 + T_SETTLE`, where R296 puts it, if that tick falls in the gap. -/
def Waveform.flagHold (w : Waveform) (tSettle : Nat) : Nat := min w.wGap (max w.hold (tSettle + 1 - w.wLo))

/-- How many ticks after the gap the tick `F_23 + T_SETTLE` and those before it take: none where R299 holds. -/
def Waveform.lateTicks (w : Waveform) (tSettle : Nat) : Nat := tSettle + 1 - (w.wLo + w.wGap)

/-- What is left of the gap before the next frame, whose first falling edge is `W_GAP` ticks after the return to high
(R296). -/
def Waveform.lead (w : Waveform) (tSettle : Nat) : Nat := w.wGap - w.flagHold tSettle

/-- `W(50, 50, 120000)` with `hold = 400`: the waveform the spec uses with the default durations
(D30; spec/95_test_vectors.md P5). -/
def Waveform.wDefault : Waveform := { wLo := 50, wHi := 50, wGap := 120000, hold := 400 }

/-- `W(2, 2, 1200)` with `hold = 10`: the waveform the spec uses with `P_100us` (D30). -/
def Waveform.w100us : Waveform := { wLo := 2, wHi := 2, wGap := 1200, hold := 10 }

/-! ## Free values: what the outside agents choose

Each names a level by a source, one of any number of independent ones, and a tick of it. No rule says what an agent
chooses (R5, R13), so they have no value that a proof can see (log entry 1). -/

/-- The `rst` level that a free host chooses. -/
opaque Config.freeRst : Nat → Nat → Level

/-- The code that a free host chooses. -/
opaque Config.freeCmd : Nat → Nat → CmdCode

/-- The clock level that a free caliper chooses. -/
opaque Config.freeClock : Nat → Nat → Level

/-- The data level that a free caliper chooses. -/
opaque Config.freeData : Nat → Nat → Level

end Sys2Proof
end

