-- ==== Sys2Proof/Syntax.lean ====
section
/-! DEFINITION. The operations of the block, one constructor per row of spec/opcode_table.json, and what the
outside world presents at the input ports in one tick (spec/10_state.md R35). -/

namespace Sys2Proof

/-- The operations (R93, R94, R96). A constructor has an argument for each field of its row that is an operand;
a field that only shows a level the operation reads from a line (READ_CLOCK's `c`, CAPTURE's frame) is no
operand: the rule of the row says `Operands: none`. -/
inductive Instr where
  /-- `NOP`, command code `00` (R93, R211). -/
  | nop
  /-- `FIND_GAP`, command code `01` (R130). -/
  | findGap
  /-- `READ_VALUE`, command code `10` (R213). -/
  | readValue
  /-- `RESERVED_11`, command code `11` (R98). -/
  | reserved11
  /-- `RST`: the `rst` input port at 1 (R280). -/
  | rst
  /-- `IS_POWERED`: a read of the `powered` output port (R222). -/
  | isPowered
  /-- `READ_CLOCK` (R110). -/
  | readClock
  /-- `READ_DATA` (R111). -/
  | readData
  /-- `WRITE_LINE`: the selected line and the level to drive (R112). -/
  | writeLine (line : Bool) (level : Level)
  /-- `WAIT_HIGH`, evaluated for one tick (R113). -/
  | waitHigh
  /-- `WAIT_LOW`, evaluated for one tick (R114). -/
  | waitLow
  /-- `FALLING_EDGE`: the edge detector (R115). -/
  | fallingEdge
  /-- `CAPTURE`: the 24-bit sampler, one arm per tick (R170). -/
  | capture
  /-- `DECODE(acc, neg, inch)` (R190). -/
  | decode (acc : Half) (neg : Bool) (inch : Level)
  /-- `FRAME24`: one frame on the two lines, its 24 bits and the standard flag (R81). -/
  | frame24 (bits : RawFrame) (flag : Level)
  deriving DecidableEq, Repr

/-- What the host presents in one tick: the ports `rst` and `cmd` (R35). -/
structure HostIn where
  rst : Bool
  cmd : CmdCode
  deriving DecidableEq, Repr

/-- What the caliper presents in one tick: the ports `clk_line` and `data_line` (R35). -/
structure LineIn where
  clk : Level
  data : Level
  deriving DecidableEq, Repr

/-- A value presented for a number of ticks: the run-length pair `v x n` of R101. -/
structure Run (α : Type) where
  val : α
  ticks : Nat
  deriving DecidableEq, Repr

/-- No command and no reset: what a script presents at every tick it does not list (R101). -/
def HostIn.silent : HostIn := { rst := false, cmd := 0#2 }

/-- An undriven line reads low, the lines being pull-down configured (R43, R110). -/
def LineIn.undriven : LineIn := { clk := false, data := false }

/-- The interframe silence: the clock line is 1 outside cells, and the spec's generator leaves the data line 0 there
(R296). -/
def LineIn.silence : LineIn := { clk := true, data := false }

end Sys2Proof
end

