-- ==== Sys2Proof/WellFormed.lean ====
section
/-! DEFINITION. The checks a term must pass: operations (none can fail), parameters (spec/00_scope.md R6, R7),
waveforms (spec/70_reset_and_hazards.md R297, R299), host scripts (spec/30_encoding.md R101). -/

namespace Sys2Proof

/-- Every operation is well formed: the widths of the operands are in their types, no frame and no flag level
is illegal (R99), no code faults (R98), and the block gives WRITE_LINE's operands no restriction (R112). -/
def Instr.wf : Instr → Bool
  | .nop => true
  | .findGap => true
  | .readValue => true
  | .reserved11 => true
  | .rst => true
  | .isPowered => true
  | .readClock => true
  | .readData => true
  | .writeLine _ _ => true
  | .waitHigh => true
  | .waitLow => true
  | .fallingEdge => true
  | .capture => true
  | .decode _ _ _ => true
  | .frame24 _ _ => true

/-- Each duration is at least 1 (R6, D3), and a tick takes time (R7; that bound on `T_TICK` is the model's, log
entry 15). -/
def Params.wf (p : Params) : Bool :=
  decide (1 ≤ p.tPowerOff) && decide (1 ≤ p.tAlign) && decide (1 ≤ p.tRetry) &&
    decide (1 ≤ p.tPrepos) && decide (1 ≤ p.tSettle) && decide (1 ≤ p.tTick)

/-- A waveform the sampler can follow: every phase lasts a tick, every cell three (R297). That the generator's `hold`
is at least 1 and ends within the gap is the model's choice (log entry 5): neither R296 nor the generator `FR` bounds
it. -/
def Waveform.wf (w : Waveform) : Bool :=
  decide (1 ≤ w.wLo) && decide (1 ≤ w.wHi) && decide (3 ≤ w.wLo + w.wHi) &&
    decide (1 ≤ w.hold) && decide (w.hold < w.wGap)

/-- A script's lines `@t: OP` stand in rising order of their ticks, none before `start`. That they do is the model's
choice (log entry 16): R101 says only that a script is a list of them. -/
def scriptWf (start : Nat) : List (Nat × HostIn) → Bool
  | [] => true
  | (t, _) :: rest => decide (start ≤ t) && scriptWf (t + 1) rest

end Sys2Proof
end

