-- ==== Sys2Proof/Decode.lean ====
section
/-! DEFINITION. The decoder, total on any word and rejecting by name, and the encoder
(spec/30_encoding.md R80, R93 to R99; spec/opcode_table.json).

The rows of the table share words: `10` is READ_VALUE on `cmd`, and the pattern of FALLING_EDGE at the edge
detector. A word says which operation it is together with the SITE it stands at, one site for each port, line or
unit that the table's rows name. Only the four words at the `cmd` port, and `rst`, can be presented by the host
(R94, R96). -/

namespace Sys2Proof

/-- Where a word of the table stands. -/
inductive Site where
  /-- The `cmd` input port: the four `CMD` rows (R93). -/
  | cmdPort
  /-- The `rst` input port: RST (R280). -/
  | rstPort
  /-- The `powered` output port: IS_POWERED (R222). -/
  | poweredPort
  /-- The clock line as a primitive reads it: READ_CLOCK (R110). -/
  | clockLine
  /-- The data line as a primitive reads it: READ_DATA (R111). -/
  | dataLine
  /-- The line driver the block leaves out: WRITE_LINE (R112). -/
  | lineDriver
  /-- The level wait for high: WAIT_HIGH (R113). -/
  | highWait
  /-- The level wait for low: WAIT_LOW (R114). -/
  | lowWait
  /-- The edge detector: FALLING_EDGE (R115). -/
  | edgeDetector
  /-- The 24-bit sampler: CAPTURE (R170). -/
  | sampler
  /-- The arithmetic of the completion step: DECODE (R190). -/
  | arithmetic
  /-- The serial frame on the lines: FRAME24 (R81). -/
  | serialLine
  deriving DecidableEq, Repr

/-- How many bits a word at the site has: the length of the row's pattern in spec/opcode_table.json. -/
def Site.width : Site → Nat
  | .cmdPort => 2
  | .rstPort => 1
  | .poweredPort => 1
  | .clockLine => 1
  | .dataLine => 1
  | .lineDriver => 2
  | .highWait => 1
  | .lowWait => 1
  | .edgeDetector => 2
  | .sampler => 25
  | .arithmetic => 18
  | .serialLine => 25

/-- A word at its site. -/
structure SitedWord where
  site : Site
  bits : Nat
  deriving DecidableEq, Repr

/-- Why a word is no operation. -/
inductive DecodeError where
  /-- The word has a bit beyond the width of its site. -/
  | tooWide
  /-- `rst = 0`: no reset is asked for (R280). -/
  | resetNotAsserted
  /-- The pair `(clk_prev, c)` is not `10`: no falling edge (R115). -/
  | notAFallingEdge
  deriving DecidableEq, Repr

/-- The command codes (R93, R98): every code is an operation. -/
def decodeCmd (cmd : CmdCode) : Instr :=
  if cmd = 0#2 then .nop
  else if cmd = 1#2 then .findGap
  else if cmd = 2#2 then .readValue
  else .reserved11

/-- What the host presents in one tick: `rst` overrides `cmd` (R255, R280). -/
def decodeHost (h : HostIn) : Instr := if h.rst then .rst else decodeCmd h.cmd

/-- The bits `lo` to `lo + len - 1` of a word. -/
def field (w lo len : Nat) : BitVec len := BitVec.ofNat len (w >>> lo)

/-- The operation that the word `w` is at a site. The layouts are the patterns of spec/opcode_table.json.
CMD: `cmd[1:0]`. WRITE_LINE `lv`: `l` bit 1, `v` bit 0. DECODE `a…anu`: `acc` bits 17 to 2, `n` bit 1,
`u` bit 0. FRAME24 `m…u`: the leftmost letter is frame bit 0 and the least significant (R9), so the frame is
bits 23 to 0 and the flag bit 24. A pattern whose letters only show levels that the operation reads (`p`, `c`,
`d`, CAPTURE's frame) admits every value of them. -/
def decodeAt (site : Site) (w : Nat) : Except DecodeError Instr :=
  if 2 ^ site.width ≤ w then .error .tooWide
  else match site with
    | .cmdPort => .ok (decodeCmd (field w 0 2))
    | .rstPort => if w = 1 then .ok .rst else .error .resetNotAsserted
    | .poweredPort => .ok .isPowered
    | .clockLine => .ok .readClock
    | .dataLine => .ok .readData
    | .lineDriver => .ok (.writeLine (w.testBit 1) (w.testBit 0))
    | .highWait => .ok .waitHigh
    | .lowWait => .ok .waitLow
    | .edgeDetector => if w = 2 then .ok .fallingEdge else .error .notAFallingEdge
    | .sampler => .ok .capture
    | .arithmetic => .ok (.decode (field w 2 16) (w.testBit 1) (w.testBit 0))
    | .serialLine => .ok (.frame24 (field w 0 24) (w.testBit 24))

/-- The decoder. -/
def SitedWord.decode (w : SitedWord) : Except DecodeError Instr := decodeAt w.site w.bits

/-- The word of an operation, at its site. A letter that only shows a level read is written 0. -/
def encode : Instr → SitedWord
  | .nop => ⟨.cmdPort, 0⟩
  | .findGap => ⟨.cmdPort, 1⟩
  | .readValue => ⟨.cmdPort, 2⟩
  | .reserved11 => ⟨.cmdPort, 3⟩
  | .rst => ⟨.rstPort, 1⟩
  | .isPowered => ⟨.poweredPort, 0⟩
  | .readClock => ⟨.clockLine, 0⟩
  | .readData => ⟨.dataLine, 0⟩
  | .writeLine line level => ⟨.lineDriver, 2 * line.toNat + level.toNat⟩
  | .waitHigh => ⟨.highWait, 0⟩
  | .waitLow => ⟨.lowWait, 0⟩
  | .fallingEdge => ⟨.edgeDetector, 2⟩
  | .capture => ⟨.sampler, 0⟩
  | .decode acc neg inch => ⟨.arithmetic, 4 * acc.toNat + 2 * neg.toNat + inch.toNat⟩
  | .frame24 bits flag => ⟨.serialLine, bits.toNat + 2 ^ 24 * flag.toNat⟩

/-- The code that the host presents on `cmd` for an operation that has one (R93). -/
def encodeCmd : Instr → Option CmdCode
  | .nop => some 0#2
  | .findGap => some 1#2
  | .readValue => some 2#2
  | .reserved11 => some 3#2
  | .rst => none
  | .isPowered => none
  | .readClock => none
  | .readData => none
  | .writeLine _ _ => none
  | .waitHigh => none
  | .waitLow => none
  | .fallingEdge => none
  | .capture => none
  | .decode _ _ _ => none
  | .frame24 _ _ => none

/-- The operation that a bare word of `nbits` bits is. A word carries no site, so its length chooses one:
up to 8 bits the `cmd` port, whose four words are the only encodings the host can present (R96); 17 to 24 bits
DECODE's 18-bit word; 25 to 32 bits the serial frame's 25-bit word. -/
def decodeTableWord (nbits w : Nat) : Option Instr :=
  if nbits ≤ 8 then (decodeAt .cmdPort w).toOption
  else if nbits ≤ 16 then none
  else if nbits ≤ 24 then (decodeAt .arithmetic w).toOption
  else if nbits ≤ 32 then (decodeAt .serialLine w).toOption
  else none

end Sys2Proof
end

