-- ==== Sys2Proof/Machine/State.lean ====
section
/-! DEFINITION. The state of the block (spec/10_state.md R20 to R52), what its environment presents at the input
ports (R35, spec/00_scope.md R5, R13), the state after reset, and the reasons a step could stop. The block has
no memory, no addresses, no register file and no program counter (R20, R26, R60). -/

namespace Sys2Proof.Machine

/-- The FrameSynchronizer state (R27); `k` counts the completed cells of the pass (R25). -/
inductive SyncReg where
  /-- `S_IDLE`: no search in progress. -/
  | idle
  /-- `S_PASS_HI(k)`: waiting for the clock line to be high. -/
  | passHi (k : Fin 24)
  /-- `S_PASS_LO(k)`: high seen, waiting for the clock line to be low. -/
  | passLo (k : Fin 24)
  /-- `S_FINAL`: 24 cells completed, waiting for the return to high. -/
  | final
  /-- `S_RETRY`: the sleep after a misaligned pass. -/
  | retry
  /-- `S_PREPOS`: the pre-positioning sleep. -/
  | prepos
  deriving DecidableEq, Repr

/-- The CaptureCoordinator and FrameDecoder state (R28); `k` is the bit waited for, 1 to 23 (`Inv` says so). -/
inductive CapReg where
  /-- `C_IDLE`: no reading in progress. -/
  | idle
  /-- `C_ARMED`: the falling-edge trigger is enabled. -/
  | armed
  /-- `C_ENTER(k)`: the tick between the sample of bit `k-1` and bit `k`'s critical section. -/
  | enter (k : Fin 24)
  /-- `C_WAIT_HI(k)`: in bit `k`'s critical section, waiting for high. -/
  | waitHi (k : Fin 24)
  /-- `C_WAIT_LO(k)`: in bit `k`'s critical section, high seen, waiting for low. -/
  | waitLo (k : Fin 24)
  /-- `C_SETTLE`: all bits sampled, the settle delay. -/
  | settle
  deriving DecidableEq, Repr

/-- The caliper's power as the block last knew it (R30, R278). -/
inductive PowerState where
  | off
  | on
  deriving DecidableEq, Repr

/-- The result of the last FIND_GAP (R31). -/
inductive SyncResult where
  /-- `NONE`: none yet. -/
  | noResult
  /-- `ALIGNED`. -/
  | aligned
  /-- `POWEROFF`. -/
  | powerOff
  deriving DecidableEq, Repr

/-- The measurement unit (R24, R88). -/
inductive Standard where
  | millimeter
  | inch
  deriving DecidableEq, Repr

/-- A countdown timer: stopped, or running with a number of ticks to go (R47). -/
inductive Timer where
  | stopped
  | running (ticksToGo : Nat)
  deriving DecidableEq, Repr

/-- The value that a value-giving operation hands to its caller: the MODEL's own slot, not a register of the
block (log entry 3). No operation that `step` runs from reset writes it, and no transition reads it. -/
inductive Returned where
  /-- No value has been returned. -/
  | nothing
  /-- `LineRead` of a line (R110, R111). -/
  | level (l : Level)
  /-- `falling_edge_t` (R115). -/
  | edge (seen : Bool)
  /-- `is_powered()` (R222). -/
  | powered (on : Bool)
  /-- The value of DECODE (R190). -/
  | magnitude (m : Half)
  deriving DecidableEq, Repr

/-- What an agent presents after the runs it lists. -/
inductive FeedRest (α : Type) where
  /-- `first` for one tick, then the runs `others`, and so again for ever. -/
  | repeating (first : α) (others : List (Run α))
  /-- What the agent chooses: a free value at every tick, from tick `tick` of the source on. -/
  | free (source tick : Nat)
  deriving DecidableEq, Repr

/-- What an agent presents from a tick on: the listed runs, the pending ones, then the rest, which never ends. -/
structure Feed (α : Type) where
  /-- The runs presented first. -/
  runs : List (Run α)
  /-- The runs after those: the ticks beyond the gap in which a frame's flag is still to come. A frame that is sent
  after them is laid over them, not after them. No runs where R299 holds, or for a host. -/
  pending : List (Run α)
  /-- What follows for ever. -/
  rest : FeedRest α
  deriving DecidableEq, Repr

/-- One value for ever. -/
def Feed.held {α : Type} (v : α) : Feed α := { runs := [], pending := [], rest := .repeating v [] }

/-- A free choice at every tick, from the first tick of the source on. -/
def Feed.chosen {α : Type} (source : Nat) : Feed α := { runs := [], pending := [], rest := .free source 0 }

/-- The machine: the block's registers, its parameters, and what its two input agents present. -/
structure State where
  /-- `sync` (R27). -/
  sync : SyncReg
  /-- `cap` (R28). -/
  cap : CapReg
  /-- `power` (R30). -/
  power : PowerState
  /-- `sync_result` (R31). -/
  syncResult : SyncResult
  /-- `val_valid` (R32). -/
  valValid : Bool
  /-- `mag` (R23). -/
  mag : Half
  /-- `std` (R24). -/
  std : Standard
  /-- `raw` (R21). -/
  raw : RawFrame
  /-- `acc` (R22). -/
  acc : Half
  /-- `clk_prev` (R43). -/
  clkPrev : Level
  /-- `po`: the synchronizer's power-off timer (R47, R133). -/
  po : Timer
  /-- `al`: the alignment timer (R47, R134). -/
  al : Timer
  /-- `sl`: the cooperative sleep (R47, R141, R144). -/
  sl : Timer
  /-- `cpo`: the capture's power-off timer (R47, R214). -/
  cpo : Timer
  /-- `bw`: the settle delay (R47, R180). -/
  bw : Timer
  /-- The five durations (R6) and the tick period (R7): constant, reset included (R285). -/
  params : Params
  /-- The timing of the frames the caliper sends for FRAME24 (R296): constant. No rule of the block reads it. -/
  wave : Waveform
  /-- What the host presents from this tick on (R13). -/
  host : Feed HostIn
  /-- What the caliper presents from this tick on (R5, R13). -/
  lines : Feed LineIn
  /-- The MODEL's own slot for an operation's returned value. -/
  returned : Returned
  deriving DecidableEq, Repr

/-- The state after reset (R52, R281): every register at the value of that table. The parameters are the
defaults (R6), and the two outside agents choose freely at every tick (R5, R13). -/
def State.reset : State :=
  { sync := .idle, cap := .idle, power := .off, syncResult := .noResult, valValid := false,
    mag := 0#16, std := .millimeter, raw := 0#24, acc := 0#16, clkPrev := false,
    po := .stopped, al := .stopped, sl := .stopped, cpo := .stopped, bw := .stopped,
    params := .pDefault, wave := .wDefault, host := .chosen 0, lines := .chosen 0, returned := .nothing }

/-- The block has no fault of any kind (R14, R99, R243; spec/93_implementation_defined.md: `fault` is "Never
used"), so there is no constructor: no step faults. Its stuck states keep stepping (R289, R290). Safe. -/
inductive Fault where
  deriving DecidableEq, Repr

/-- Why the model gives an instruction no meaning. -/
inductive Refusal where
  /-- An instruction that has no meaning yet. Raised by nothing: every row of the table has its meaning. Safe. -/
  | notModelled (mnemonic : String)
  deriving DecidableEq, Repr

end Sys2Proof.Machine
end

