-- ==== Sys2Proof/Machine/Operands.lean ====
section
/-! DEFINITION. What the operations read and what they make of it: the levels at the input ports in the present
tick, the fields of a frame and their assembly (spec/30_encoding.md R81 to R92), the arithmetic of DECODE
(spec/42_frame_decoder.md R190 to R196), and the run-length feeds of scripts and frames (R101, R296). -/

namespace Sys2Proof.Machine

/-! ## Feeds of the input ports -/

/-- The value that listed runs present in this tick, and the runs from the next tick on; none if they have no tick
left. A run of no ticks presents nothing. -/
def popRun {α : Type} : List (Run α) → Option (α × List (Run α))
  | [] => none
  | ⟨_, 0⟩ :: later => popRun later
  | ⟨v, 1⟩ :: later => some (v, later)
  | ⟨v, n + 2⟩ :: later => some (v, ⟨v, n + 1⟩ :: later)

/-- Some runs first, then a feed. -/
def Feed.listing {α : Type} (runs : List (Run α)) (later : Feed α) : Feed α :=
  { later with runs := runs ++ later.runs }

/-- The value that a feed presents in this tick, and the feed from the next tick on; `choice` is what its agent
chooses freely. -/
def Feed.pop {α : Type} (choice : Nat → Nat → α) (f : Feed α) : α × Feed α :=
  match popRun f.runs with
  | some (v, runs) => (v, { f with runs := runs })
  | none =>
    match popRun f.pending with
    | some (v, pending) => (v, { f with runs := [], pending := pending })
    | none =>
      match f.rest with
      | .repeating first others => (first, { runs := others, pending := [], rest := f.rest })
      | .free source tick => (choice source tick, { runs := [], pending := [], rest := .free source (tick + 1) })

/-- The value that a feed presents `n` ticks from now. -/
def Feed.nth {α : Type} (choice : Nat → Nat → α) : Nat → Feed α → α
  | 0, f => (f.pop choice).1
  | n + 1, f => Feed.nth choice n (f.pop choice).2

/-- What a free host presents (R13). -/
def HostIn.choice (source tick : Nat) : HostIn :=
  { rst := Config.freeRst source tick, cmd := Config.freeCmd source tick }

/-- What a free caliper presents (R5, R13). -/
def LineIn.choice (source tick : Nat) : LineIn :=
  { clk := Config.freeClock source tick, data := Config.freeData source tick }

/-- What the host presents in this tick. -/
def State.hostNow (s : State) : HostIn := (s.host.pop HostIn.choice).1

/-- What the host presents from the next tick on. -/
def State.hostNext (s : State) : Feed HostIn := (s.host.pop HostIn.choice).2

/-- What the host presents `n` ticks from now. -/
def State.hostAt (s : State) (n : Nat) : HostIn := s.host.nth HostIn.choice n

/-- What the caliper presents in this tick. -/
def State.linesNow (s : State) : LineIn := (s.lines.pop LineIn.choice).1

/-- What the caliper presents from the next tick on. -/
def State.linesNext (s : State) : Feed LineIn := (s.lines.pop LineIn.choice).2

/-- What the caliper presents `n` ticks from now. -/
def State.linesAt (s : State) (n : Nat) : LineIn := s.lines.nth LineIn.choice n

/-- `LineRead(clock) = c_t` (R12, R110). -/
def State.clk (s : State) : Level := s.linesNow.clk

/-- `LineRead(data) = d_t` (R12, R111). -/
def State.data (s : State) : Level := s.linesNow.data

/-- The environment moves on to the next tick: `in_{t+1}` (R11). -/
def State.nextTick (s : State) : State :=
  { s with host := s.hostNext, lines := s.linesNext }

/-- A host script's runs, for a script in rising order of its ticks (`scriptWf`, log entry 16): each listed operation
for one tick at its tick, `HostIn.silent` at every tick before the last that is not listed (R101). -/
def scriptRuns (now : Nat) : List (Nat × HostIn) → List (Run HostIn)
  | [] => []
  | (t, op) :: rest => ⟨.silent, t - now⟩ :: ⟨op, 1⟩ :: scriptRuns (t + 1) rest

/-- A host script: its runs, and `HostIn.silent` ever after (R101). -/
def hostScript (script : List (Nat × HostIn)) : Feed HostIn := Feed.listing (scriptRuns 0 script) (.held .silent)

/-! ## The fields of a frame -/

/-- `zext_16` of a level (R12). -/
def zext16 (d : Level) : Half := (BitVec.ofBool d).setWidth 16

/-- `zext_24` of a level (R12). -/
def zext24 (d : Level) : RawFrame := (BitVec.ofBool d).setWidth 24

/-- `raw[15:0]`, the raw magnitude count (R81, R85, R89). -/
def frameCount (raw : RawFrame) : Half := raw.extractLsb' 0 16

/-- `raw[21]`, the sign (R81, R85, R90). -/
def frameSign (raw : RawFrame) : Bool := raw.getLsbD signIndex

/-- `raw[k] <- d`; the other 23 bits keep their values (R175). -/
def storeBit (raw : RawFrame) (k : Nat) (d : Level) : RawFrame :=
  (raw &&& ~~~(zext24 true <<< k)) ||| (zext24 d <<< k)

/-- The accumulator after the sample of bit `k`: `acc | (zext_16(d) << k)` below index 16, unchanged from 16 on
(R89, R176). -/
def foldBit (acc : Half) (k : Nat) (d : Level) : Half :=
  if k < magnitudeBits then acc ||| (zext16 d <<< k) else acc

/-- The standard a flag level stands for: high Inch, low Millimeter (R88, R180). -/
def standardOf (flag : Level) : Standard := if flag then .inch else .millimeter

/-! ## The arithmetic of DECODE -/

/-- The halvings, on the unsigned accumulator, the remainder dropped (R191, R192). -/
def halved (acc : Half) (inch : Level) : Half :=
  let h1 := acc >>> 1
  if inch then h1 >>> 1 else h1

/-- `DECODE(acc, neg, inch)`: halve, halve again for Inch, apply the sign last (R91, R190, R193). -/
def decodeMagnitude (acc : Half) (neg : Bool) (inch : Level) : Half :=
  if neg then -(halved acc inch) else halved acc inch

/-! ## The caliper's frame -/

/-- The `n` cells from cell `k` on, each with the high phase after it: cell `k` low with bit `k` on the data line,
then high with bit `k + 1` set up (R296). -/
def cellRuns (w : Waveform) (bits : RawFrame) : Nat → Nat → List (Run LineIn)
  | 0, _ => []
  | n + 1, k =>
    ⟨⟨false, bits.getLsbD k⟩, w.wLo⟩ :: ⟨⟨true, bits.getLsbD (k + 1)⟩, w.wHi⟩ :: cellRuns w bits n (k + 1)

/-- A frame from its first falling edge on: 23 cells with their high phases, the last cell, and the clock high with
the standard flag held. The flag stands on the data line at `F_23 + T_SETTLE` if that tick falls in the last cell or
in the gap after it (R82, R83, R296). -/
def burstRuns (w : Waveform) (tSettle : Nat) (bits : RawFrame) (flag : Level) : List (Run LineIn) :=
  cellRuns w bits 23 0 ++
    [⟨⟨false, bits.getLsbD 23⟩, min w.wLo tSettle⟩, ⟨⟨false, flag⟩, w.wLo - tSettle⟩,
      ⟨⟨true, flag⟩, w.flagHold tSettle⟩]

/-- One transmission: the rest of the silence before the frame, and the frame (R296). -/
def frameRuns (w : Waveform) (tSettle : Nat) (bits : RawFrame) (flag : Level) : List (Run LineIn) :=
  ⟨.silence, w.lead tSettle⟩ :: burstRuns w tSettle bits flag

/-- The ticks beyond the gap up to `F_23 + T_SETTLE`, with the flag on the data line (R296). -/
def lateRuns (w : Waveform) (tSettle : Nat) (flag : Level) : List (Run LineIn) :=
  if w.lateTicks tSettle = 0 then [] else [⟨⟨true, flag⟩, w.lateTicks tSettle⟩]

/-- How many ticks the runs take. -/
def ticksOf {α : Type} (runs : List (Run α)) : Nat := (runs.map Run.ticks).sum

/-- The first `n` ticks of the runs. -/
def takeTicks {α : Type} : Nat → List (Run α) → List (Run α)
  | _, [] => []
  | n, ⟨v, m⟩ :: later => if n ≤ m then [⟨v, n⟩] else ⟨v, m⟩ :: takeTicks (n - m) later

/-- The runs without their first `n` ticks. -/
def dropTicks {α : Type} : Nat → List (Run α) → List (Run α)
  | _, [] => []
  | n, ⟨v, m⟩ :: later => if n < m then ⟨v, m - n⟩ :: later else dropTicks (n - m) later

/-- The ticks of a run with the data levels of `under` as far as they go, and its own after that. -/
def withData (r : Run LineIn) (under : List (Run LineIn)) : List (Run LineIn) :=
  (takeTicks r.ticks under).map (fun u => ⟨⟨r.val.clk, u.val.data⟩, u.ticks⟩) ++ [⟨r.val, r.ticks - ticksOf under⟩]

/-- Runs laid over others: the clock levels are theirs, and so is the data level in the first tick of each low run,
where a bit stands; in every other tick, in which R296 leaves the data level free but for a flag, it is the one of the
runs below, as far as these go. -/
def layOver : List (Run LineIn) → List (Run LineIn) → List (Run LineIn)
  | runs, [] => runs
  | [], _ => []
  | r :: later, under =>
    let kept := if r.val.clk then 0 else min 1 r.ticks
    ⟨r.val, kept⟩ :: withData ⟨r.val, r.ticks - kept⟩ (dropTicks kept under) ++
      layOver later (dropTicks r.ticks under)

/-- What the caliper presents when it sends a frame after what it has listed: a flag that is still to come keeps its
tick, and the silence follows for ever, as the clock line is 1 outside cells (R296). -/
def Feed.sending (f : Feed LineIn) (w : Waveform) (tSettle : Nat) (bits : RawFrame) (flag : Level) : Feed LineIn :=
  let frame := frameRuns w tSettle bits flag
  { runs := f.runs ++ layOver frame f.pending
    pending := layOver (lateRuns w tSettle flag) (dropTicks (ticksOf frame) f.pending)
    rest := .repeating .silence [] }

end Sys2Proof.Machine
end

