-- ==== Sys2Proof/Machine/Flags.lean ====
section
/-! DEFINITION. The output ports, every one a function of the state alone (spec/10_state.md R36), the encodings
of their values (spec/30_encoding.md R86 to R88, R95), and the conditions that transitions test: idle (R29), a
fired timer (R49), a falling edge (spec/40_line_reader.md R115), the source's SyncState (R34); and the time that
ticks take (spec/00_scope.md R7). -/

namespace Sys2Proof.Machine

/-- Running with 0 ticks to go (R49). -/
def Timer.fired (t : Timer) : Bool := t == .running 0

/-- Both state machines idle (R29). -/
def State.isIdle (s : State) : Bool := s.sync == .idle && s.cap == .idle

/-- `falling_edge_t`: the clock line was high in the previous tick and is low in this one (R17, R115). -/
def State.fallingEdge (s : State) : Bool := s.clkPrev && !s.clk

/-! ## Encodings -/

/-- `0` Off, `1` On (R87). -/
def PowerState.code : PowerState → BitVec 1
  | .off => 0#1
  | .on => 1#1

/-- `00` NONE, `01` ALIGNED, `10` POWEROFF; `11` is never produced (R95). -/
def SyncResult.code : SyncResult → BitVec 2
  | .noResult => 0#2
  | .aligned => 1#2
  | .powerOff => 2#2

/-- `0` Millimeter, `1` Inch (R88). -/
def Standard.code : Standard → BitVec 1
  | .millimeter => 0#1
  | .inch => 1#1

/-! ## Output ports -/

/-- `busy` (R36, R38). -/
def State.busy (s : State) : Bool := !s.isIdle

/-- `powered`: `is_powered()` (R36, R39, R222). -/
def State.powered (s : State) : Bool := s.power == .on

/-- `crit`: in the critical section of some bit (R36, R40, R184, R185). -/
def State.crit (s : State) : Bool :=
  match s.cap with
  | .waitHi _ => true
  | .waitLo _ => true
  | .idle => false
  | .armed => false
  | .enter _ => false
  | .settle => false

/-- `irq_en`: the falling-edge trigger is enabled (R36, R41, R216). -/
def State.irqEn (s : State) : Bool := s.cap == .armed

/-- The eight output ports (R36). -/
structure Outputs where
  busy : Bool
  powered : BitVec 1
  syncResult : BitVec 2
  valValid : Bool
  mag : Half
  std : BitVec 1
  crit : Bool
  irqEn : Bool
  deriving DecidableEq, Repr

/-- The levels at the output ports during a tick (R36): a function of the state alone (R11). -/
def State.outputs (s : State) : Outputs :=
  { busy := s.busy, powered := s.power.code, syncResult := s.syncResult.code, valValid := s.valValid,
    mag := s.mag, std := s.std.code, crit := s.crit, irqEn := s.irqEn }

/-! ## Time -/

/-- The time that a number of ticks takes, in microseconds: the one use of `T_TICK` (R7). -/
def microsecondsOf (p : Params) (ticks : Nat) : Nat := ticks * p.tTick

/-! ## The source's SyncState, as predicates (R34) -/

/-- Misaligned: in the retry sleep. -/
def State.misaligned (s : State) : Bool := s.sync == .retry

/-- Aligned: any other state of the search. -/
def State.alignedSoFar (s : State) : Bool := s.sync != .idle && s.sync != .retry

/-- Timed out to PowerOff. -/
def State.timedOut (s : State) : Bool := s.po.fired

/-- Active: searching and not timed out. -/
def State.searchActive (s : State) : Bool := s.sync != .idle && !s.timedOut

end Sys2Proof.Machine
end

