-- ==== Sys2Proof/Machine/Ops.lean ====
section
/-! DEFINITION. The named operations over the registers and timers that the meanings share. What a processor
model does when it takes an exception, this block does in `State.powerOffExit`, `State.misalignmentExit` and
`State.captureStart`: each one step, nothing saved, nowhere vectored (spec/60_exceptions.md R258 to R263). -/

namespace Sys2Proof.Machine

/-! ## Phases 2 and 3 of a step -/

/-- One tick of a timer: a running timer counts down and stays at 0 (R49). -/
def Timer.countdown : Timer → Timer
  | .stopped => .stopped
  | .running n => .running (n - 1)

/-- The countdown of all five timers (R49, R51 phase 2). -/
def State.countdown (s : State) : State :=
  { s with po := s.po.countdown, al := s.al.countdown, sl := s.sl.countdown,
           cpo := s.cpo.countdown, bw := s.bw.countdown }

/-- `clk_prev <- c` (R43, R51 phase 3). -/
def State.latchClock (s : State) : State := { s with clkPrev := s.clk }

/-- A value handed to the caller of the operation. -/
def State.returning (s : State) (r : Returned) : State := { s with returned := r }

/-! ## The search of FIND_GAP -/

/-- The power-off exit, in one step (R138, R240, R258). -/
def State.powerOffExit (s : State) : State :=
  { s with power := .off, po := .stopped, al := .stopped, sl := .stopped,
           syncResult := .powerOff, sync := .idle }

/-- The misalignment exit: the cell count is dropped (R139, R241, R259). -/
def State.misalignmentExit (s : State) : State :=
  { s with al := .stopped, sl := .running s.params.tRetry, sync := .retry }

/-- `start_pass()`, the top of Searching: a fired power-off timer is acted on before a pass starts (R134, R142). -/
def State.startPass (s : State) : State :=
  if s.po.fired then s.powerOffExit
  else { s with al := .running s.params.tAlign, sync := .passHi 0 }

/-- FIND_GAP is accepted (R132, R133). -/
def State.acceptFindGap (s : State) : State :=
  State.startPass { s with syncResult := .noResult, po := .running s.params.tPowerOff }

/-- Alignment success (R143). -/
def State.alignmentSuccess (s : State) : State :=
  { s with power := .on, po := .stopped, al := .stopped, sl := .running s.params.tPrepos, sync := .prepos }

/-- The end of the pre-positioning sleep (R145). -/
def State.completeSearch (s : State) : State :=
  { s with sl := .stopped, syncResult := .aligned, sync := .idle }

/-- Where cell `k` leads when it is complete (R136). -/
def afterCell (k : Fin 24) : SyncReg :=
  if h : k.val < 23 then .passHi ⟨k.val + 1, by omega⟩ else .final

/-- The synchronizer's WAIT_HIGH: what a high clock line ends (R113, R135, R140, R143). -/
def State.syncWaitHigh (s : State) : State :=
  if s.clk then
    match s.sync with
    | .passHi k => { s with sync := .passLo k }
    | .final => s.alignmentSuccess
    | .idle => s
    | .passLo _ => s
    | .retry => s
    | .prepos => s
  else s

/-- The synchronizer's WAIT_LOW: what a low clock line ends (R114, R136). -/
def State.syncWaitLow (s : State) : State :=
  if s.clk then s
  else
    match s.sync with
    | .passLo k => { s with sync := afterCell k }
    | .idle => s
    | .passHi _ => s
    | .final => s
    | .retry => s
    | .prepos => s

/-- A tick of a pass or of the final wait: the power-off timer, then the alignment timer, then the line
(R137, R253). -/
def State.passTick (s : State) (wait : State) : State :=
  if s.po.fired then s.powerOffExit
  else if s.al.fired then s.misalignmentExit
  else wait

/-- A tick of the search: the `case sync of` of R130. -/
def State.searchTick (s : State) : State :=
  match s.sync with
  | .idle => s
  | .passHi _ => s.passTick s.syncWaitHigh
  | .passLo _ => s.passTick s.syncWaitLow
  | .final => s.passTick s.syncWaitHigh
  | .retry => if s.sl.fired then State.startPass { s with sl := .stopped } else s
  | .prepos => if s.sl.fired then s.completeSearch else s

/-! ## The capture of READ_VALUE -/

/-- READ_VALUE is accepted (R213, R214, R216). -/
def State.acceptReadValue (s : State) : State :=
  { s with valValid := false, cpo := .running s.params.tPowerOff, cap := .armed }

/-- The capture starts at the falling edge: the coordinator's two writes and bit 0, in one step
(R171, R215, R220, R260). -/
def State.captureStart (s : State) : State :=
  { s with power := .on, cpo := .stopped, raw := zext24 s.data, acc := zext16 s.data, cap := .enter 1 }

/-- The capture's power-off timer fires while armed: the block stays armed (R218). -/
def State.armedTimeout (s : State) : State := { s with power := .off, cpo := .stopped }

/-- A tick of `C_ARMED`: a falling edge wins over the timer (R213, R215, R219, R254). -/
def State.armedTick (s : State) : State :=
  if s.fallingEdge then s.captureStart
  else if s.cpo.fired then s.armedTimeout
  else s

/-- The sample of bit `k` at `F_k`: the data line into `raw` and, below index 16, into `acc`; after bit 23 the
settle delay is armed (R174 to R179). -/
def State.sampleBit (s : State) (k : Fin 24) : State :=
  if h : k.val < 23 then
    { s with raw := storeBit s.raw k s.data, acc := foldBit s.acc k s.data,
             cap := .enter ⟨k.val + 1, by omega⟩ }
  else
    { s with raw := storeBit s.raw k s.data, acc := foldBit s.acc k s.data,
             bw := .running s.params.tSettle, cap := .settle }

/-- The completion step: the flag is sampled and the measurement written (R180, R181, R221). -/
def State.completeCapture (s : State) : State :=
  { s with bw := .stopped, std := standardOf s.data,
           mag := decodeMagnitude s.acc (frameSign s.raw) s.data, valValid := true, cap := .idle }

/-- The decoder's WAIT_HIGH (R113, R173). -/
def State.capWaitHigh (s : State) : State :=
  if s.clk then
    match s.cap with
    | .waitHi k => { s with cap := .waitLo k }
    | .idle => s
    | .armed => s
    | .enter _ => s
    | .waitLo _ => s
    | .settle => s
  else s

/-- The decoder's WAIT_LOW: the tick that ends it is the sample tick (R114, R174). -/
def State.capWaitLow (s : State) : State :=
  if s.clk then s
  else
    match s.cap with
    | .waitLo k => s.sampleBit k
    | .idle => s
    | .armed => s
    | .enter _ => s
    | .waitHi _ => s
    | .settle => s

/-- A tick of the sampler: the trigger tick and the `case cap of` of R170. -/
def State.captureTick (s : State) : State :=
  match s.cap with
  | .idle => s
  | .armed => if s.fallingEdge then s.captureStart else s
  | .enter k => { s with cap := .waitHi k }
  | .waitHi _ => s.capWaitHigh
  | .waitLo _ => s.capWaitLow
  | .settle => if s.bw.fired then s.completeCapture else s

/-! ## Reset, and what the environment presents -/

/-- Every register at its reset value; the parameters and the environment's feeds are not the block's to
reset (R280, R281, R285). -/
def State.toReset (s : State) : State :=
  { State.reset with params := s.params, wave := s.wave, host := s.host, lines := s.lines }

/-- The operation a tick runs (R51 phases 1 and 4, R211, R212, R223): reset, else, if the block is idle, what
`cmd` says, else the operation in progress, whatever `cmd` says. -/
def State.operation (s : State) : Instr :=
  if s.hostNow.rst || s.isIdle then decodeHost s.hostNow
  else if s.sync = .idle then
    match s.cap with
    | .armed => .readValue
    | .idle => .capture
    | .enter _ => .capture
    | .waitHi _ => .capture
    | .waitLo _ => .capture
    | .settle => .capture
  else .findGap

/-- An idle block at whose `cmd` port the host presents `cmd` in this tick: the command is then accepted. What the
host and the caliper present in later ticks is unchanged. -/
def State.presentCommand (s : State) (cmd : CmdCode) : State :=
  { s with sync := .idle, cap := .idle,
           po := .stopped, al := .stopped, sl := .stopped, cpo := .stopped, bw := .stopped,
           host := Feed.listing [⟨⟨false, cmd⟩, 1⟩] s.hostNext }

/-- The frame is what the caliper sends from this tick on, in place of what it presented before, and in the tick in
which it begins the host presents nothing. -/
def State.presentFrame (s : State) (bits : RawFrame) (flag : Level) : State :=
  { s with host := Feed.listing [⟨.silent, 1⟩] s.hostNext,
           lines := (Feed.held .silence).sending s.wave s.params.tSettle bits flag }

/-- A block at the end of its settle delay, whose completion step in this tick runs DECODE on these operands: the
accumulator, the sign in `raw[21]`, and the flag on the data line in this tick (R180, R181, R190). -/
def State.presentDecode (s : State) (acc : Half) (neg : Bool) (inch : Level) : State :=
  { s with sync := .idle, cap := .settle, power := .on,
           raw := acc.setWidth 24 ||| (zext24 neg <<< signIndex), acc := acc,
           po := .stopped, al := .stopped, sl := .stopped, cpo := .stopped, bw := .running 1,
           host := Feed.listing [⟨.silent, 1⟩] s.hostNext,
           lines := Feed.listing [⟨⟨s.clk, inch⟩, 1⟩] s.linesNext }

end Sys2Proof.Machine
end

