-- ==== Sys2Proof/Machine/Coordinator.lean ====
section
/-! DEFINITION. The meanings of the CaptureCoordinator's operations (spec/43_capture_coordinator.md): NOP, READ_VALUE,
the reserved code, IS_POWERED; and of the `rst` port (spec/70_reset_and_hazards.md R280). -/

namespace Sys2Proof.Machine

/-- NOP: nothing (R211). -/
def execNop (s : State) : Host.Outcome State Fault Refusal := .next s

/-- The reserved code is "ignored exactly like `00`" (R98). -/
def execReserved11 (s : State) : Host.Outcome State Fault Refusal := .next s

/-- READ_VALUE for one tick (R213): accepted by an idle block, ignored while a search is in progress (R212), and
going on with the reading that is in progress: the armed trigger (R215), then the capture (R170). -/
def execReadValue (s : State) : Host.Outcome State Fault Refusal :=
  .next (if s.isIdle then s.acceptReadValue
    else if s.sync = .idle then (if s.cap = .armed then s.armedTick else s.captureTick)
    else s)

/-- IS_POWERED returns `power`, at any tick, without any side effect (R39, R222). -/
def execIsPowered (s : State) : Host.Outcome State Fault Refusal :=
  .next (s.returning (.powered s.powered))

/-- RST: the next state is the reset state, whatever the current one (R280, R283). -/
def execRst (s : State) : Host.Outcome State Fault Refusal := .next s.toReset

end Sys2Proof.Machine
end

