-- ==== Sys2Proof/Machine/LineReader.lean ====
section
/-! DEFINITION. The meanings of the LineReader's operations (spec/40_line_reader.md): READ_CLOCK, READ_DATA,
WRITE_LINE, WAIT_HIGH, WAIT_LOW, FALLING_EDGE. They are internal: the host cannot issue them (R94), and the
operations of the other families contain them. -/

namespace Sys2Proof.Machine

/-- READ_CLOCK returns the level of the clock line in this tick, without any side effect (R67, R110). -/
def execReadClock (s : State) : Host.Outcome State Fault Refusal :=
  .next (s.returning (.level s.clk))

/-- READ_DATA returns the level of the data line in this tick, without any side effect (R67, R111). -/
def execReadData (s : State) : Host.Outcome State Fault Refusal :=
  .next (s.returning (.level s.data))

/-- WRITE_LINE: "there is no output line, no operation writes a line, and no state depends on it" (R112): whatever
the line and the level, nothing changes. -/
def execWriteLine (_line : Bool) (_level : Level) (s : State) : Host.Outcome State Fault Refusal :=
  .next s

/-- WAIT_HIGH for one tick: a high clock line ends the wait of the state that is held, a low one leaves it; where no
WAIT_HIGH is held there is nothing to end. The wait has no timeout of its own (R113). -/
def execWaitHigh (s : State) : Host.Outcome State Fault Refusal :=
  .next (if s.sync = .idle then s.capWaitHigh else s.syncWaitHigh)

/-- WAIT_LOW for one tick: WAIT_HIGH with the levels exchanged (R114). -/
def execWaitLow (s : State) : Host.Outcome State Fault Refusal :=
  .next (if s.sync = .idle then s.capWaitLow else s.syncWaitLow)

/-- FALLING_EDGE returns whether this tick is a falling edge, and takes this tick's level into `clk_prev`; the
detector itself writes no flag (R115). -/
def execFallingEdge (s : State) : Host.Outcome State Fault Refusal :=
  .next (s.latchClock.returning (.edge s.fallingEdge))

end Sys2Proof.Machine
end

