-- ==== Sys2Proof/Machine/Sampler.lean ====
section
/-! DEFINITION. The meanings of the FrameDecoder's operations (spec/42_frame_decoder.md): CAPTURE and DECODE; and of
the frame the caliper sends, FRAME24 (spec/30_encoding.md R81 to R85). -/

namespace Sys2Proof.Machine

/-- CAPTURE for one tick (R170); while a search is in progress there is no capture to go on with (R29). -/
def execCapture (s : State) : Host.Outcome State Fault Refusal :=
  .next (if s.sync = .idle then s.captureTick else s)

/-- DECODE returns its value; `mag`, `std` and `val_valid` are written beside it by the completion step
(R181, R190). -/
def execDecode (acc : Half) (neg : Bool) (inch : Level) (s : State) : Host.Outcome State Fault Refusal :=
  .next (s.returning (.magnitude (decodeMagnitude acc neg inch)))

/-- FRAME24: the caliper sends the frame after what it is already sending, with the timing of `State.wave`: 24
cells and the flag slot on the two lines, and the silence after them (R81 to R83, R296). No register changes: the block reads the lines tick
by tick (R110, R111). -/
def execFrame24 (bits : RawFrame) (flag : Level) (s : State) : Host.Outcome State Fault Refusal :=
  .next { s with lines := s.lines.sending s.wave s.params.tSettle bits flag }

end Sys2Proof.Machine
end

