-- ==== Sys2Proof/Machine/Synchronizer.lean ====
section
/-! DEFINITION. The meaning of FIND_GAP, the FrameSynchronizer's operation (spec/41_frame_synchronizer.md). -/

namespace Sys2Proof.Machine

/-- FIND_GAP for one tick (R130): accepted by an idle block (R132, R211), going on with the search that is in
progress, and ignored while a reading is in progress (R212). -/
def execFindGap (s : State) : Host.Outcome State Fault Refusal :=
  .next (if s.isIdle then s.acceptFindGap else s.searchTick)

end Sys2Proof.Machine
end

