-- ==== Sys2Proof/Machine/Dispatch.lean ====
section
/-! DEFINITION. One arm per operation of spec/opcode_table.json. -/

namespace Sys2Proof.Machine

def exec (i : Instr) (s : State) : Host.Outcome State Fault Refusal :=
  match i with
  -- what the host presents: the cmd port, the rst port, the powered port
  | .nop => Sys2Proof.Machine.execNop s
  | .findGap => Sys2Proof.Machine.execFindGap s
  | .readValue => Sys2Proof.Machine.execReadValue s
  | .reserved11 => Sys2Proof.Machine.execReserved11 s
  | .rst => Sys2Proof.Machine.execRst s
  | .isPowered => Sys2Proof.Machine.execIsPowered s
  -- internal operations
  | .readClock => Sys2Proof.Machine.execReadClock s
  | .readData => Sys2Proof.Machine.execReadData s
  | .writeLine line level => Sys2Proof.Machine.execWriteLine line level s
  | .waitHigh => Sys2Proof.Machine.execWaitHigh s
  | .waitLow => Sys2Proof.Machine.execWaitLow s
  | .fallingEdge => Sys2Proof.Machine.execFallingEdge s
  | .capture => Sys2Proof.Machine.execCapture s
  | .decode acc neg inch => Sys2Proof.Machine.execDecode acc neg inch s
  -- the caliper's frame
  | .frame24 bits flag => Sys2Proof.Machine.execFrame24 bits flag s

end Sys2Proof.Machine
end

