-- ==== Sys2Proof/Machine/Step.lean ====
section
/-! DEFINITION. One step is one tick (spec/00_scope.md R11), in the order of spec/10_state.md R51. -/

namespace Sys2Proof.Machine

/-- Phases 1 and 2 of a tick: the countdown, but not in a tick with `rst = 1` (R51, R280). -/
def State.beginTick (s : State) : State := if s.hostNow.rst then s else s.countdown

/-- The end of the tick that began in `s`: `clk_prev` takes the level of this tick, but not in a tick with
`rst = 1` (R51 phase 3, R280), and the environment moves on. No transition writes `clk_prev`, so the ones that
read it read the old value although it is written here. -/
def State.endTick (s t : State) : State :=
  if s.hostNow.rst then t.nextTick else t.latchClock.nextTick

/-- One tick: exactly one operation runs (R51, R223). -/
def step (s : State) : Host.Outcome State Fault Refusal :=
  match exec s.operation s.beginTick with
  | .next t => .next (s.endTick t)
  | .fault r => .fault r
  | .refused r => .refused r

/-- The word stands where the next step takes it from: up to 8 bits at the `cmd` port of an idle block; 17 to 24
bits as the operands of DECODE in a block whose next tick is a completion step, which runs it (R181, R190); 25 to 32
bits as a frame on the lines. -/
def State.withFetchWord (s : State) (nbits w : Nat) : State :=
  if nbits ≤ 8 then s.presentCommand (field w 0 2)
  else if nbits ≤ 16 then s
  else if nbits ≤ 24 then s.presentDecode (field w 2 16) (w.testBit 1) (w.testBit 0)
  else if nbits ≤ 32 then s.presentFrame (field w 0 24) (w.testBit 24)
  else s

end Sys2Proof.Machine
end

