-- ==== Sys2Proof/Safety.lean ====
section
/-! DEFINITION. What holds of every state a run reaches (spec/10_state.md R22, R29, R53; spec/42_frame_decoder.md
R176, R194), what a run is, and what the environment must provide for a reading to be right
(spec/70_reset_and_hazards.md R297 to R302). -/

namespace Sys2Proof.Machine

/-- The search is in a pass or the final wait. -/
def SyncReg.inPass : SyncReg → Bool
  | .passHi _ => true
  | .passLo _ => true
  | .final => true
  | .idle => false
  | .retry => false
  | .prepos => false

/-- The bit that a capture waits for next: `k` in the states of bit `k`, 24 in the settle delay, none outside a
capture. -/
def CapReg.waitingFor : CapReg → Option Nat
  | .enter k => some k.val
  | .waitHi k => some k.val
  | .waitLo k => some k.val
  | .settle => some 24
  | .idle => none
  | .armed => none

/-- A timer that is stopped, or has at most `d` ticks to go. -/
def Timer.atMost (t : Timer) (d : Nat) : Bool :=
  match t with
  | .stopped => true
  | .running n => decide (n ≤ d)

/-- A timer that runs, with at most `d` ticks to go. -/
def Timer.runsAtMost (t : Timer) (d : Nat) : Bool :=
  match t with
  | .stopped => false
  | .running n => decide (n ≤ d)

/-- The invariants of R53, with what they need to be kept by every step. -/
structure Inv (s : State) : Prop where
  /-- The parameters are well formed: each duration is at least 1 (R6). -/
  params : s.params.wf = true
  /-- At most one operation is in progress (R29). -/
  oneOperation : s.sync = .idle ∨ s.cap = .idle
  /-- `po` runs in a pass, the final wait and the retry sleep, and is stopped elsewhere. -/
  poSearch : s.sync.inPass = true ∨ s.sync = .retry → s.po.runsAtMost s.params.tPowerOff = true
  poElse : s.sync.inPass = false → s.sync ≠ .retry → s.po = .stopped
  /-- `al` runs in a pass and the final wait, and is stopped elsewhere. -/
  alPass : s.sync.inPass = true → s.al.runsAtMost s.params.tAlign = true
  alElse : s.sync.inPass = false → s.al = .stopped
  /-- `sl` runs in the two sleeps, and only there. -/
  slRetry : s.sync = .retry → s.sl.runsAtMost s.params.tRetry = true
  slPrepos : s.sync = .prepos → s.sl.runsAtMost s.params.tPrepos = true
  slElse : s.sync ≠ .retry → s.sync ≠ .prepos → s.sl = .stopped
  /-- `cpo` is stopped unless the trigger is armed. -/
  cpoArmed : s.cpo.atMost s.params.tPowerOff = true
  cpoElse : s.cap ≠ .armed → s.cpo = .stopped
  /-- `bw` runs in the settle delay, and only there. -/
  bwSettle : s.cap = .settle → s.bw.runsAtMost s.params.tSettle = true
  bwElse : s.cap ≠ .settle → s.bw = .stopped
  /-- `acc = raw[15:0]` (R22). -/
  accRaw : s.acc = frameCount s.raw
  /-- The capture waits for bits 1 to 23 (R28). -/
  capIndex : ∀ k, s.cap.waitingFor = some k → 1 ≤ k
  /-- The bits not sampled yet are 0 (R171, R176). -/
  rawFresh : ∀ k, s.cap.waitingFor = some k → s.raw.toNat < 2 ^ k
  /-- After an alignment and during a capture the caliper counts as powered (R143, R145, R220, R290). -/
  preposOn : s.sync = .prepos → s.power = .on
  captureOn : s.cap.waitingFor ≠ none → s.power = .on
  /-- `mag` is never −32768 (R92, R194). -/
  magRange : s.mag ≠ 0x8000#16

/-- The same state in a machine whose ticks take `n` microseconds (R7). -/
def State.withTickPeriod (s : State) (n : Nat) : State := { s with params := { s.params with tTick := n } }

/-- The host presents `rst = 0` in every tick from now on. -/
def State.noReset (s : State) : Prop := ∀ n, (s.hostAt n).rst = false

/-- `t` is the state `n` ticks after `s`. -/
def After : Nat → State → State → Prop
  | 0, s, t => s = t
  | n + 1, s, t => ∃ u, step s = .next u ∧ After n u t

/-- The tick samples the data line: the trigger tick, a sample tick, or the flag's tick (R61, R111). `s` is the
state after the tick's countdown. -/
def State.samplesData (s : State) : Bool :=
  s.sync == .idle &&
    match s.cap with
    | .armed => s.fallingEdge
    | .waitLo _ => !s.clk
    | .settle => s.bw.fired
    | .idle => false
    | .enter _ => false
    | .waitHi _ => false

/-! ## What the environment must provide -/

/-- The relations among durations and waveform that a working system needs (R299, R301 (a) to (d)); no rule of the
block checks them. -/
def workingSetup (p : Params) (w : Waveform) : Bool :=
  decide (w.frameTicks + 3 ≤ p.tAlign) && decide (p.tAlign < w.wGap) &&
    decide (w.frameTicks ≤ p.tRetry) && decide (p.tPrepos + 2 ≤ w.wGap) &&
    decide (p.tSettle < w.wLo + w.wGap)

/-- The ticks that the host has, after `ALIGNED`, to present READ_VALUE (R302). -/
def hostMargin (p : Params) (w : Waveform) : Nat := w.wGap - p.tPrepos - 2

/-- One bit cell as the decoder consumes it, tick by tick: the clock low, then high for at least one tick, then the
low tick of the sample, whose data level is the bit (R82, R174). The first low tick, if any, and the data levels
of the other ticks are free. -/
structure Cell where
  lowData : List Level
  highFirst : Level
  highData : List Level
  bit : Level
  deriving DecidableEq, Repr

/-- A cell's ticks on the two lines. -/
def Cell.ticks (c : Cell) : List (Run LineIn) :=
  c.lowData.map (fun d => ⟨⟨false, d⟩, 1⟩) ++ ⟨⟨true, c.highFirst⟩, 1⟩ ::
    c.highData.map (fun d => ⟨⟨true, d⟩, 1⟩) ++ [⟨⟨false, c.bit⟩, 1⟩]

/-- How many ticks a cell lasts. -/
def Cell.length (c : Cell) : Nat := c.lowData.length + c.highData.length + 2

end Sys2Proof.Machine
end

