-- ==== Sys2Proof/Certificates/Slice0/Obligations.lean ====
section
/-! DEFINITION. The statements for the provers. Each docstring names the rules of spec/ it formalises. -/

open Sys2Proof Sys2Proof.Machine

/-! ## Reset and the tick -/

/-- Every register and every output port after reset (R36, R52, R281), and the default durations and tick period
(R6, R7). The values are the spec's own decisions. -/
def Obligations.ResetStateHasTheSpecifiedValues : Prop :=
  State.reset.sync = .idle ∧ State.reset.cap = .idle ∧ State.reset.power = .off ∧
  State.reset.syncResult = .noResult ∧ State.reset.valValid = false ∧ State.reset.mag = 0#16 ∧
  State.reset.std = .millimeter ∧ State.reset.raw = 0#24 ∧ State.reset.acc = 0#16 ∧
  State.reset.clkPrev = false ∧ State.reset.po = .stopped ∧ State.reset.al = .stopped ∧
  State.reset.sl = .stopped ∧ State.reset.cpo = .stopped ∧ State.reset.bw = .stopped ∧
  State.reset.params =
    { tPowerOff := 500000, tAlign := 30000, tRetry := 20000, tPrepos := 110000, tSettle := 280, tTick := 1 } ∧
  State.reset.outputs =
    { busy := false, powered := 0#1, syncResult := 0#2, valValid := false, mag := 0#16, std := 0#1,
      crit := false, irqEn := false }

/-- A tick with `rst = 1` gives the reset state, whatever the state and the other ports (R255, R280, R283); RST by
itself gives it too. The parameters are no registers, and what the environment presents later is its own (log
entries 1, 2). -/
def Obligations.ResetTickGivesTheResetState : Prop :=
  (∀ s : State, s.hostNow.rst = true →
    step s = .next { State.reset with
      params := s.params, wave := s.wave,
      host := s.hostNext, lines := s.linesNext }) ∧
  (∀ s : State, exec .rst s = .next { State.reset with
      params := s.params, wave := s.wave, host := s.host, lines := s.lines })

/-- A step runs the operation that the host's word decodes to, when the block is idle or `rst` is 1: what the step
adds is the countdown before it, `clk_prev` and the environment's next tick after it; in a tick with `rst = 1`
neither countdown nor `clk_prev` (R51, R211, R255). -/
def Obligations.IdleOrResetTickRunsTheHostsWord : Prop :=
  ∀ s : State, (s.hostNow.rst = true ∨ s.busy = false) →
    ∃ t, exec (decodeHost s.hostNow) (if s.hostNow.rst then s else s.countdown) = .next t ∧
      step s = .next { t with
        clkPrev := if s.hostNow.rst then t.clkPrev else s.clk
        host := s.hostNext, lines := s.linesNext }

/-- A step of a busy block runs the operation in progress: FIND_GAP's in a search, READ_VALUE's while armed,
CAPTURE's afterwards (R51, R223; which operation's name a busy tick bears is the model's choice, log entry 4). -/
def Obligations.BusyTickRunsTheOperationInProgress : Prop :=
  ∀ s : State, s.hostNow.rst = false → s.busy = true →
    ∃ i t, (s.sync ≠ .idle → i = .findGap) ∧
      (s.sync = .idle → s.cap = .armed → i = .readValue) ∧
      (s.sync = .idle → s.cap ≠ .armed → i = .capture) ∧
      exec i s.countdown = .next t ∧
      step s = .next { t with
        clkPrev := s.clk
        host := s.hostNext, lines := s.linesNext }

/-- A command at a busy tick is ignored whatever its value: another code in that tick gives the same next state
(R212). -/
def Obligations.BusyBlockIgnoresTheCommand : Prop :=
  ∀ (s : State) (c : CmdCode), s.busy = true → s.hostNow.rst = false →
    step s = step { s with host := Feed.listing [⟨⟨false, c⟩, 1⟩] s.hostNext }

/-- NOP and the reserved code: the operation changes nothing, and an idle tick with code `00` or `11` changes nothing
but `clk_prev` (R98, R211). -/
def Obligations.NopAndReservedCodeChangeOnlyClkPrev : Prop :=
  (∀ s : State, exec .nop s = .next s ∧ exec .reserved11 s = .next s) ∧
  (∀ s : State, Inv s → s.busy = false → s.hostNow.rst = false →
    (s.hostNow.cmd = 0#2 ∨ s.hostNow.cmd = 3#2) →
    step s = .next { s with
      clkPrev := s.clk
      host := s.hostNext, lines := s.linesNext })

/-- Every tick but one with `rst = 1` leaves this tick's clock level in `clk_prev`, in every state (R43). -/
def Obligations.ClkPrevFollowsTheClock : Prop :=
  ∀ s t : State, s.hostNow.rst = false → step s = .next t → t.clkPrev = s.clk

/-- No operation and no step stops: the block has no fault outcome and no refusal (R14, R243). -/
def Obligations.NoOperationFaultsOrIsRefused : Prop :=
  (∀ (i : Instr) (s : State), ∃ t, exec i s = .next t) ∧ (∀ s : State, ∃ t, step s = .next t)

/-- The parameters stay as they are in every step and every operation, RST included. R285 asks the host to keep the five
durations constant; that RST keeps them, and that the tick period and the caliper's waveform are constants of the
state, are the model's choices (log entries 2 and 5). -/
def Obligations.ParametersNeverChange : Prop :=
  (∀ s t : State, step s = .next t → t.params = s.params ∧ t.wave = s.wave) ∧
  (∀ (i : Instr) (s t : State), exec i s = .next t → t.params = s.params ∧ t.wave = s.wave)

/-! ## Invariants -/

/-- The state after reset satisfies the invariant. -/
def Obligations.ResetStateSatisfiesTheInvariant : Prop := Inv State.reset

/-- Every step keeps the invariant: at most one operation in progress (R29), the timers run only in their states
(R53), `acc = raw[15:0]` (R22), the bits not sampled yet are 0 (R176), the caliper counts as powered after an
alignment and during a capture (R145, R290), `mag` is never −32768 (R194). -/
def Obligations.EveryStepKeepsTheInvariant : Prop :=
  ∀ s t : State, Inv s → step s = .next t → Inv t

/-! ## Timers -/

/-- A timer running with `d` to go is fired after `n` countdowns exactly when `d ≤ n`, and stays fired; a stopped
timer never fires (R44, R49, R50). -/
def Obligations.TimerFiresExactlyWhenItsTicksAreOver : Prop :=
  ∀ d n : Nat, ((Nat.iterate Timer.countdown n (.running d)).fired = true ↔ d ≤ n) ∧
    (Nat.iterate Timer.countdown n .stopped).fired = false

/-! ## FIND_GAP -/

/-- FIND_GAP at an idle block: `sync_result` cleared, `po` and `al` armed, the first pass begun, nothing else
(R132). -/
def Obligations.FindGapIsAccepted : Prop :=
  ∀ s : State, s.busy = false → 1 ≤ s.params.tPowerOff →
    exec .findGap s = .next { s with
      syncResult := .noResult, po := .running s.params.tPowerOff,
      al := .running s.params.tAlign, sync := .passHi 0 }

/-- The power-off exit, in a pass, in the final wait, and at the end of a retry sleep: all in one step, and the block
is idle and `powered` 0 afterwards (R138). -/
def Obligations.PowerOffTimerEndsTheSearch : Prop :=
  ∀ s : State, s.po.fired = true → (s.sync.inPass = true ∨ (s.sync = .retry ∧ s.sl.fired = true)) →
    ∃ t, exec .findGap s = .next t ∧
      t = { s with power := .off, po := .stopped, al := .stopped, sl := .stopped,
                   syncResult := .powerOff, sync := .idle } ∧
      t.powered = false ∧ (s.cap = .idle → t.busy = false)

/-- The misalignment exit: `al` cancelled, the retry sleep begun, the cell count dropped, nothing else (R139). -/
def Obligations.AlignmentTimerMakesThePassMisaligned : Prop :=
  ∀ s : State, s.sync.inPass = true → s.po.fired = false → s.al.fired = true →
    exec .findGap s = .next { s with
      al := .stopped, sl := .running s.params.tRetry, sync := .retry }

/-- The cells of a pass, when neither timer has fired: a high clock ends `S_PASS_HI(k)`, a low clock completes cell
`k`, and the other level leaves the state (R135, R136). -/
def Obligations.PassCountsCellsByTheClockLevel : Prop :=
  ∀ (s : State) (k : Fin 24), s.po.fired = false → s.al.fired = false →
    (s.sync = .passHi k →
      exec .findGap s = .next (if s.clk then { s with sync := .passLo k } else s)) ∧
    (s.sync = .passLo k →
      exec .findGap s = .next (if s.clk then s
        else { s with sync := if k = 23 then .final else .passHi (k + 1) }))

/-- The final wait, when neither timer has fired: a high clock is the alignment success, a low one leaves the state
(R143). -/
def Obligations.FinalWaitEndsInAlignmentSuccess : Prop :=
  ∀ s : State, s.sync = .final → s.po.fired = false → s.al.fired = false →
    exec .findGap s = .next (if s.clk then
      { s with power := .on, po := .stopped, al := .stopped,
               sl := .running s.params.tPrepos, sync := .prepos }
      else s)

/-- The retry sleep is not cut short, and the top of Searching tests `po` before it starts a pass (R141, R142); how
many passes have failed makes no difference. -/
def Obligations.TopOfSearchingTestsThePowerOffTimer : Prop :=
  (∀ s : State, s.sync = .retry → s.sl.fired = false → exec .findGap s = .next s) ∧
  (∀ s : State, s.sync = .retry → s.sl.fired = true → s.po.fired = true →
    exec .findGap s = .next { s with
      power := .off, po := .stopped, al := .stopped, sl := .stopped,
      syncResult := .powerOff, sync := .idle }) ∧
  (∀ s : State, s.sync = .retry → s.sl.fired = true → s.po.fired = false →
    exec .findGap s = .next { s with
      sl := .stopped, al := .running s.params.tAlign, sync := .passHi 0 })

/-- The pre-positioning sleep ends with `ALIGNED`, an idle block and `powered` 1, and not before its timer has fired
(R144, R145). -/
def Obligations.PrePositioningSleepEndsAligned : Prop :=
  (∀ s : State, s.sync = .prepos → s.sl.fired = false → exec .findGap s = .next s) ∧
  (∀ s : State, Inv s → s.sync = .prepos → s.sl.fired = true →
    ∃ t, exec .findGap s = .next t ∧
      t = { s with sl := .stopped, syncResult := .aligned, sync := .idle } ∧
      t.busy = false ∧ t.powered = true)

/-- The frame of FIND_GAP: the capture side, the measurement, `clk_prev` and the ports' feeds stay as they are
(R130, R132, R149); while a reading is in progress everything does (R212). -/
def Obligations.FindGapLeavesTheCaptureSide : Prop :=
  ∀ s t : State, exec .findGap s = .next t →
    (t.cap = s.cap ∧ t.raw = s.raw ∧ t.acc = s.acc ∧ t.mag = s.mag ∧ t.std = s.std ∧
      t.valValid = s.valValid ∧ t.clkPrev = s.clkPrev ∧ t.cpo = s.cpo ∧ t.bw = s.bw ∧
      t.params = s.params ∧ t.wave = s.wave ∧ t.host = s.host ∧ t.lines = s.lines ∧
      t.returned = s.returned) ∧
    (s.sync = .idle → s.cap ≠ .idle → t = s)

/-- Every FIND_GAP ends: the first tick after which the block is idle again brings `ALIGNED` with `powered` 1, less than
`T_POWEROFF + T_PREPOS` ticks after the acceptance, or `POWEROFF` with `powered` 0, from `T_POWEROFF` to
`T_POWEROFF + T_RETRY - 1` ticks after it (R146). -/
def Obligations.EverySearchEndsInTime : Prop :=
  ∀ s : State, Inv s → s.noReset → s.busy = false → s.hostNow.cmd = 1#2 →
    ∃ n t, After n s t ∧ t.busy = false ∧ 1 ≤ n ∧
      (∀ m u, 1 ≤ m → m < n → After m s u → u.busy = true) ∧
      ((t.syncResult = .aligned ∧ t.powered = true ∧ n ≤ s.params.tPowerOff + s.params.tPrepos) ∨
        (t.syncResult = .powerOff ∧ t.powered = false ∧
          s.params.tPowerOff + 1 ≤ n ∧ n ≤ s.params.tPowerOff + s.params.tRetry))

/-- A search begun in the silence before a whole frame that fits the alignment window ends `ALIGNED`, exactly
`T_PREPOS` ticks after the clock's return to high (R148, R300). The frame is FRAME24's, with any timing in which every
phase lasts a tick, all that R297 asks for the synchronizer; what follows the frame is free. -/
def Obligations.SearchAlignsOnOneWholeFrame : Prop :=
  ∀ (s : State) (bits : RawFrame) (flag : Level) (later : Feed LineIn),
    let lead := s.wave.lead s.params.tSettle
    Inv s → s.noReset → s.busy = false → s.hostNow.cmd = 1#2 →
    1 ≤ s.wave.wLo → 1 ≤ s.wave.wHi → 1 ≤ s.wave.flagHold s.params.tSettle →
    s.lines = Feed.listing (frameRuns s.wave s.params.tSettle bits flag) later →
    2 ≤ lead → lead + s.wave.frameTicks + 1 ≤ s.params.tAlign → lead + s.wave.frameTicks < s.params.tPowerOff →
    ∃ t, After (lead + s.wave.frameTicks + s.params.tPrepos + 1) s t ∧
      t.busy = false ∧ t.syncResult = .aligned ∧ t.powered = true

/-! ## READ_VALUE and CAPTURE -/

/-- READ_VALUE at an idle block: `val_valid` cleared, `cpo` armed, the trigger enabled, nothing else; the trigger is
enabled exactly in `C_ARMED` (R213, R216). -/
def Obligations.ReadValueArmsTheTrigger : Prop :=
  (∀ s : State, s.busy = false →
    ∃ t, exec .readValue s = .next t ∧
      t = { s with valValid := false, cpo := .running s.params.tPowerOff, cap := .armed } ∧
      t.irqEn = true) ∧
  (∀ s : State, s.irqEn = true ↔ s.cap = .armed)

/-- A tick of the armed trigger: a falling edge starts the capture, in one step with the power state, the timer and
bit 0; else a fired timer only turns `power` off; else nothing changes (R171, R215, R218 to R220). -/
def Obligations.ArmedTriggerPrefersTheEdge : Prop :=
  ∀ s : State, s.sync = .idle → s.cap = .armed →
    (s.fallingEdge = true →
      exec .readValue s = .next { s with
        power := .on, cpo := .stopped, raw := if s.data then 1#24 else 0#24,
        acc := if s.data then 1#16 else 0#16, cap := .enter 1 }) ∧
    (s.fallingEdge = false → s.cpo.fired = true →
      exec .readValue s = .next { s with power := .off, cpo := .stopped }) ∧
    (s.fallingEdge = false → s.cpo.fired = false → exec .readValue s = .next s)

/-- The states of a bit: one tick of `C_ENTER`; a high clock ends `C_WAIT_HI`; a low clock ends `C_WAIT_LO` with the
sample, and leads to the next bit, or after bit 23 to the settle delay; `crit` is 1 in the two waits
(R172 to R174, R179). -/
def Obligations.CaptureWaitsThenSamples : Prop :=
  ∀ (s : State) (k : Fin 24), s.sync = .idle →
    (s.cap = .enter k → s.crit = false ∧ exec .capture s = .next { s with cap := .waitHi k }) ∧
    (s.cap = .waitHi k → s.crit = true ∧
      exec .capture s = .next (if s.clk then { s with cap := .waitLo k } else s)) ∧
    (s.cap = .waitLo k → s.crit = true ∧
      (s.clk = true → exec .capture s = .next s) ∧
      (s.clk = false → exec .capture s = .next { s with
        raw := storeBit s.raw k s.data, acc := foldBit s.acc k s.data,
        bw := if k = 23 then .running s.params.tSettle else s.bw,
        cap := if k = 23 then .settle else .enter (k + 1) }))

/-- The sample of bit `k`: `raw[k]` becomes the data level and the other bits of `raw` stay; below index 16 the level
is or-ed into `acc` at `k`, which is an assignment when that bit was 0; from 16 on `acc` stays (R175, R176). -/
def Obligations.SampleStoresItsBitOnly : Prop :=
  ∀ (s : State) (k : Fin 24), s.sync = .idle → s.cap = .waitLo k → s.clk = false →
    ∃ t, exec .capture s = .next t ∧
      (∀ j : Nat, t.raw.getLsbD j = if j = k.val then s.data else s.raw.getLsbD j) ∧
      (k.val < 16 → (∀ j : Nat, t.acc.getLsbD j = (s.acc.getLsbD j || (decide (j = k.val) && s.data))) ∧
        (s.acc.getLsbD k.val = false →
          ∀ j : Nat, t.acc.getLsbD j = if j = k.val then s.data else s.acc.getLsbD j)) ∧
      (16 ≤ k.val → t.acc = s.acc)

/-- The completion step: `bw` cancelled, the flag sampled into `std`, `mag` the value of DECODE for `acc`,
`raw[21]` and the flag, `val_valid` set, `cap` idle, nothing else; before `bw` fires nothing changes (R180, R181). -/
def Obligations.CompletionWritesTheMeasurement : Prop :=
  ∀ s : State, s.sync = .idle → s.cap = .settle →
    (s.bw.fired = false → exec .capture s = .next s) ∧
    (s.bw.fired = true →
      exec .capture s = .next { s with
        bw := .stopped, std := if s.data then .inch else .millimeter,
        mag := decodeMagnitude s.acc (s.raw.getLsbD 21) s.data, valValid := true, cap := .idle })

/-- READ_VALUE goes on with the capture of its reading; a READ_VALUE and a CAPTURE do nothing in a search; CAPTURE
begins at the trigger tick of the armed state and does nothing when no reading is in progress
(R170, R212, R213, R215). -/
def Obligations.ReadValueGoesOnWithItsCapture : Prop :=
  (∀ s : State, s.sync = .idle → s.cap ≠ .idle → s.cap ≠ .armed →
    ∃ t, exec .readValue s = .next t ∧ exec .capture s = .next t) ∧
  (∀ s : State, s.sync ≠ .idle → exec .readValue s = .next s ∧ exec .capture s = .next s) ∧
  (∀ s : State, s.sync = .idle → s.cap = .idle → exec .capture s = .next s) ∧
  (∀ s : State, s.sync = .idle → s.cap = .armed → s.fallingEdge = false → exec .capture s = .next s) ∧
  (∀ s : State, s.sync = .idle → s.cap = .armed → s.fallingEdge = true →
    ∃ t, exec .capture s = .next t ∧ exec .readValue s = .next t)

/-- The frame of READ_VALUE and CAPTURE: the search side, `sync_result`, `clk_prev` and the feeds stay; `mag` and
`std` stay but in the completion step, `val_valid` but in it and at the acceptance, `raw` and `acc` but at the trigger
and in sample ticks, `power` but while armed (R181, R213, R225). -/
def Obligations.ReadingLeavesTheSearchSide : Prop :=
  ∀ (i : Instr) (s t : State), (i = .readValue ∨ i = .capture) → exec i s = .next t →
    (t.sync = s.sync ∧ t.syncResult = s.syncResult ∧ t.po = s.po ∧ t.al = s.al ∧ t.sl = s.sl ∧
      t.clkPrev = s.clkPrev ∧ t.params = s.params ∧ t.wave = s.wave ∧ t.host = s.host ∧
      t.lines = s.lines ∧ t.returned = s.returned) ∧
    (¬(s.cap = .settle ∧ s.bw.fired = true) → t.mag = s.mag ∧ t.std = s.std ∧
      (s.busy = true → t.valValid = s.valValid)) ∧
    (s.cap ≠ .armed → (∀ k, s.cap = .waitLo k → s.clk = true) → t.raw = s.raw ∧ t.acc = s.acc) ∧
    (s.cap ≠ .armed → t.power = s.power)

/-- A block armed with the clock high decodes any frame the wire presents with cells of at least three ticks: a first
falling edge with bit 0, 23 cells with bits 1 to 23, and the flag at `F_23 + T_SETTLE`. The measurement stands when
the block is idle again, whatever the other ticks' data levels are (R82, R84, R170, R197, R297, R298, R303). -/
def Obligations.ArmedBlockDecodesTheFrameOnTheWire : Prop :=
  ∀ (s : State) (bit0 flagClk flag : Level) (cells : List Cell) (settle : List LineIn)
    (later : Feed LineIn),
    s.sync = .idle → s.cap = .armed → s.clkPrev = true → s.noReset →
    cells.length = 23 → (∀ c ∈ cells, 3 ≤ c.length) → settle.length + 1 = s.params.tSettle →
    s.lines = Feed.listing (⟨⟨false, bit0⟩, 1⟩ :: (cells.flatMap Cell.ticks ++
      settle.map (fun l => ⟨l, 1⟩) ++ [⟨⟨flagClk, flag⟩, 1⟩])) later →
    ∃ t, After (1 + (cells.map Cell.length).sum + s.params.tSettle) s t ∧
      t.busy = false ∧ t.valValid = true ∧ t.powered = true ∧
      t.raw.getLsbD 0 = bit0 ∧ (∀ (j : Nat) (h : j < cells.length), t.raw.getLsbD (j + 1) = cells[j].bit) ∧
      t.acc = frameCount t.raw ∧ t.mag = decodeMagnitude (frameCount t.raw) (frameSign t.raw) flag ∧
      t.std = (if flag then .inch else .millimeter) ∧ t.syncResult = s.syncResult ∧ t.lines = later

/-- A frame that the caliper sends to an armed block (FRAME24) is read back whole: `raw` is the frame, `mag` is DECODE
of its count, its sign and the flag, wherever the flag slot falls, and whatever earlier flag is still to come before it
(R81, R89 to R91, R296, R299, R303). Where the frame stands on the lines, how long the flag is held, and the bounds on
`hold` in `Waveform.wf` are the model's choices (log entry 5). -/
def Obligations.TransmittedFrameIsDecoded : Prop :=
  ∀ (s u : State) (bits : RawFrame) (flag : Level),
    let lead := s.wave.lead s.params.tSettle
    s.sync = .idle → s.cap = .armed → s.noReset → s.wave.wf = true → 1 ≤ s.params.tSettle →
    s.lines.runs = [] → ticksOf s.lines.pending ≤ lead + 23 * (s.wave.wLo + s.wave.wHi) + s.params.tSettle →
    (s.clkPrev = true ∨ 1 ≤ lead) →
    exec (.frame24 bits flag) s = .next u →
    ∃ t, After (lead + 23 * (s.wave.wLo + s.wave.wHi) + s.params.tSettle + 1) u t ∧
      t.busy = false ∧ t.valValid = true ∧ t.powered = true ∧ t.raw = bits ∧ t.acc = frameCount bits ∧
      t.mag = decodeMagnitude (frameCount bits) (frameSign bits) flag ∧
      t.std = (if flag then .inch else .millimeter)

/-- A READING on the reference waveform: FIND_GAP in the silence before a frame, and READ_VALUE within the host's margin
after `ALIGNED`, give the measurement of the NEXT frame, whatever the first one was (R102, R227, R297 to R303). The
frames are FRAME24's, with any timing that `workingSetup` admits; how long it holds the flag, and the bounds on `hold`
in `Waveform.wf`, are the model's choices (log entry 5). What follows the two frames is free. -/
def Obligations.ReadingReturnsTheTransmittedMeasurement : Prop :=
  ∀ (s : State) (bits0 bits1 : RawFrame) (flag0 flag1 : Level) (gap late : Nat) (later : Feed LineIn),
    Inv s → s.busy = false → s.wave.wf = true → workingSetup s.params s.wave = true →
    2 ≤ gap → gap + s.wave.frameTicks + 1 ≤ s.params.tAlign → gap + s.wave.frameTicks < s.params.tPowerOff →
    late ≤ hostMargin s.params s.wave →
    s.lines = Feed.listing (⟨.silence, gap⟩ :: (burstRuns s.wave s.params.tSettle bits0 flag0 ++
      frameRuns s.wave s.params.tSettle bits1 flag1)) later →
    s.host = hostScript [(0, ⟨false, 1#2⟩),
      (gap + s.wave.frameTicks + s.params.tPrepos + 1 + late, ⟨false, 2#2⟩)] →
    ∃ t, After (gap + s.wave.frameTicks + s.wave.wGap + 23 * (s.wave.wLo + s.wave.wHi) +
        s.params.tSettle + 1) s t ∧
      t.busy = false ∧ t.syncResult = .aligned ∧ t.powered = true ∧ t.valValid = true ∧
      t.mag = decodeMagnitude (frameCount bits1) (frameSign bits1) flag1 ∧
      t.std = (if flag1 then .inch else .millimeter)

/-- The armed state has no timeout: as long as no falling edge comes the block stays armed and busy, and the only sign
is that `powered` falls to 0 when `cpo` runs out (R218, R289). -/
def Obligations.ArmedBlockWaitsWithoutTimeout : Prop :=
  ∀ (s : State) (n : Nat), s.sync = .idle → s.cap = .armed → s.noReset →
    (0 < n → s.fallingEdge = false) →
    (∀ j, j + 1 < n → ¬((s.linesAt j).clk = true ∧ (s.linesAt (j + 1)).clk = false)) →
    ∃ t, After n s t ∧ t.sync = .idle ∧ t.cap = .armed ∧ t.busy = true ∧
      (∀ d, s.cpo = .running d → 1 ≤ d → d ≤ n → t.powered = false) ∧
      (∀ d, s.cpo = .running d → n < d → t.powered = s.powered)

/-- The decoder's waits have no timeout: with the clock low in `C_WAIT_HI`, or high in `C_WAIT_LO`, the block stays where
it is, busy, with `crit` 1, no timer running and `powered` 1 (R183, R290). -/
def Obligations.CaptureWaitsWithoutTimeout : Prop :=
  ∀ (s : State) (n : Nat) (k : Fin 24), Inv s → s.noReset →
    ((s.cap = .waitHi k ∧ ∀ j, j < n → (s.linesAt j).clk = false) ∨
      (s.cap = .waitLo k ∧ ∀ j, j < n → (s.linesAt j).clk = true)) →
    ∃ t, After n s t ∧ t.cap = s.cap ∧ t.busy = true ∧ t.crit = true ∧ t.powered = true ∧
      t.po = .stopped ∧ t.al = .stopped ∧ t.sl = .stopped ∧ t.cpo = .stopped ∧ t.bw = .stopped

/-- A falling edge in the tick that accepts READ_VALUE is not taken and not remembered: the block is armed, and a clock
that is still low in the next tick starts nothing (R45, R115, R225). -/
def Obligations.EdgeAtAcceptanceIsNotTaken : Prop :=
  ∀ s : State, s.busy = false → s.hostNow.rst = false → s.hostNow.cmd = 2#2 → s.fallingEdge = true →
    ∃ t, step s = .next t ∧ t.cap = .armed ∧ t.raw = s.raw ∧ t.power = s.power ∧
      (t.hostNow.rst = false → t.clk = false → ∃ u, step t = .next u ∧ u.cap = .armed ∧ u.raw = s.raw)

/-- Between two critical sections `crit` is 0 for one tick: it falls in the sample tick of a bit, and is 1 again after
the next tick, but after bit 23 (R184, R185). -/
def Obligations.CritIsLowForOneTickBetweenBits : Prop :=
  ∀ s t : State, Inv s → s.hostNow.rst = false → s.crit = true → step s = .next t → t.crit = false →
    ∃ k, s.cap = .waitLo k ∧ s.clk = false ∧
      ((k = 23 ∧ t.cap = .settle) ∨
        (k ≠ 23 ∧ t.cap = .enter (k + 1) ∧
          (t.hostNow.rst = false → ∃ u, step t = .next u ∧ u.crit = true)))

/-! ## DECODE -/

/-- The value of DECODE: the unsigned accumulator divided by 2, or by 4 for Inch, the remainder dropped, with the sign
applied last; each halving is one of its own (R190 to R193). -/
def Obligations.DecodeHalvesThenAppliesTheSign : Prop :=
  ∀ (acc : Half) (neg : Bool) (inch : Level),
    (decodeMagnitude acc neg inch).toInt =
      (if neg then -1 else 1) * ((if inch then acc.toNat / 2 / 2 else acc.toNat / 2 : Nat) : Int) ∧
    acc.toNat / 2 / 2 = acc.toNat / 4 ∧ (decodeMagnitude 2500#16 true true = 0xFD8F#16)

/-- DECODE returns its value and changes nothing else (R190; the slot for the returned value is the model's choice, log
entry 3). Its range is −32767 to 32767, for Inch −16383 to 16383, never −32768; and the sign is lost when the halved
count is 0 (R92, R194, R195). -/
def Obligations.DecodeStaysInRange : Prop :=
  (∀ (acc : Half) (neg : Bool) (inch : Level) (s : State),
    exec (.decode acc neg inch) s = .next { s with returned := .magnitude (decodeMagnitude acc neg inch) }) ∧
  (∀ (acc : Half) (neg : Bool) (inch : Level),
    (decodeMagnitude acc neg inch).toInt.natAbs ≤ (if inch then 16383 else 32767) ∧
    decodeMagnitude acc neg inch ≠ 0x8000#16 ∧
    (acc.toNat < (if inch then 4 else 2) → decodeMagnitude acc neg inch = 0#16))

/-! ## The line reader's operations, IS_POWERED and FRAME24 -/

/-- READ_CLOCK and READ_DATA return the level of their line in this tick and change nothing else; WRITE_LINE changes
nothing (R67, R110 to R112; the slot for the returned value is the model's choice, log entry 3, and that WRITE_LINE
runs with no effect is log entry 7). -/
def Obligations.LineReadsHaveNoSideEffect : Prop :=
  ∀ s : State,
    exec .readClock s = .next { s with returned := .level s.linesNow.clk } ∧
    exec .readData s = .next { s with returned := .level s.linesNow.data } ∧
    (∀ line level, exec (.writeLine line level) s = .next s)

/-- IS_POWERED returns whether the power state is On, in every state, busy or not, and changes nothing else
(R39, R222; the slot for the returned value is the model's choice, log entry 3). -/
def Obligations.IsPoweredReadsPowerAtAnyTick : Prop :=
  ∀ s : State, (s.power = .on → exec .isPowered s = .next { s with returned := .powered true }) ∧
    (s.power = .off → exec .isPowered s = .next { s with returned := .powered false })

/-- FALLING_EDGE returns whether the clock was high in the previous tick and is low in this one, and takes this tick's
level into `clk_prev`; it changes nothing else (R115; the slot for the returned value is the model's choice, log
entry 3). -/
def Obligations.FallingEdgeIsHighThenLow : Prop :=
  ∀ s : State, ∃ e, exec .fallingEdge s = .next { s with clkPrev := s.clk, returned := .edge e } ∧
    (e = true ↔ s.clkPrev = true ∧ s.clk = false)

/-- WAIT_HIGH and WAIT_LOW for one tick: the awaited level ends the wait of the state held, the other level changes
nothing (R113, R114); where no such wait is held nothing changes, the model's choice (log entry 8). -/
def Obligations.LevelWaitsEndAtTheAwaitedLevel : Prop :=
  (∀ s : State, s.clk = false → exec .waitHigh s = .next s) ∧
  (∀ (s : State) (k : Fin 24), s.clk = true →
    (s.sync = .passHi k → exec .waitHigh s = .next { s with sync := .passLo k }) ∧
    (s.sync = .final → exec .waitHigh s = .next { s with
      power := .on, po := .stopped, al := .stopped, sl := .running s.params.tPrepos, sync := .prepos }) ∧
    (s.sync = .idle → s.cap = .waitHi k → exec .waitHigh s = .next { s with cap := .waitLo k })) ∧
  (∀ s : State, (∀ k, s.sync ≠ .passHi k) → s.sync ≠ .final →
    ¬(s.sync = .idle ∧ ∃ k, s.cap = .waitHi k) → exec .waitHigh s = .next s) ∧
  (∀ s : State, s.clk = true → exec .waitLow s = .next s) ∧
  (∀ (s : State) (k : Fin 24), s.clk = false →
    (s.sync = .passLo k → exec .waitLow s = .next { s with
      sync := if k = 23 then .final else .passHi (k + 1) }) ∧
    (s.sync = .idle → s.cap = .waitLo k → ∃ t, exec .waitLow s = .next t ∧ exec .capture s = .next t ∧
      t.cap = if k = 23 then .settle else .enter (k + 1))) ∧
  (∀ s : State, (∀ k, s.sync ≠ .passLo k) → ¬(s.sync = .idle ∧ ∃ k, s.cap = .waitLo k) →
    exec .waitLow s = .next s)

/-- The level waits are the transition rules of their states: FIND_GAP in a pass or the final wait, when neither timer
has fired, and CAPTURE in its waits, do what WAIT_HIGH or WAIT_LOW does (R113, R114, R135, R136, R140, R173, R174). -/
def Obligations.WaitsAreTheTransitionsOfTheirStates : Prop :=
  (∀ s : State, s.po.fired = false → s.al.fired = false →
    ((∃ k, s.sync = .passHi k) ∨ s.sync = .final) → exec .findGap s = exec .waitHigh s) ∧
  (∀ s : State, s.po.fired = false → s.al.fired = false →
    (∃ k, s.sync = .passLo k) → exec .findGap s = exec .waitLow s) ∧
  (∀ s : State, s.sync = .idle → (∃ k, s.cap = .waitHi k) → exec .capture s = exec .waitHigh s) ∧
  (∀ s : State, s.sync = .idle → (∃ k, s.cap = .waitLo k) → exec .capture s = exec .waitLow s)

/-- FRAME24 puts the frame on the lines after what they list already and changes nothing else; tick by tick it is the
rest of the silence, then for each bit `k` a low phase that begins with bit `k` on the data line, between two bits a
high phase, and after bit 23 the clock high for ever; the flag is on the data line at `F_23 + T_SETTLE`, wherever that
tick falls (R81 to R83, R296; where the frame stands on the lines, and the data levels off those ticks, are log
entry 5). -/
def Obligations.FrameOnTheLinesIsTheReferenceWaveform : Prop :=
  (∀ (bits : RawFrame) (flag : Level) (s : State),
    exec (.frame24 bits flag) s =
      .next { s with lines := s.lines.sending s.wave s.params.tSettle bits flag }) ∧
  (∀ (f : Feed LineIn) (w : Waveform) (tSettle : Nat) (bits : RawFrame) (flag : Level),
    1 ≤ w.wLo → 1 ≤ w.wHi → 1 ≤ tSettle → f.pending = [] →
    let at_ := fun n => (f.sending w tSettle bits flag).nth LineIn.choice n
    let lead := ticksOf f.runs + w.lead tSettle
    let cell := w.wLo + w.wHi
    (∀ n, n < ticksOf f.runs → at_ n = f.nth LineIn.choice n) ∧
    (∀ n, ticksOf f.runs ≤ n → n < lead → at_ n = ⟨true, false⟩) ∧
    (∀ k j, k < 24 → j < w.wLo →
      at_ (lead + k * cell + j) = ⟨false, if k = 23 ∧ tSettle ≤ j then flag else bits.getLsbD k⟩) ∧
    (∀ k j, k < 23 → j < w.wHi → at_ (lead + k * cell + w.wLo + j) = ⟨true, bits.getLsbD (k + 1)⟩) ∧
    (∀ j, j < w.flagHold tSettle → at_ (lead + w.frameTicks + j) = ⟨true, flag⟩) ∧
    (at_ (lead + 23 * cell + tSettle)).data = flag ∧
    (∀ n, lead + w.frameTicks ≤ n → (at_ n).clk = true))

/-! ## The registers' writers, and what a step reads -/

/-- `power` is written in five cases only, each with its value, at most one of them in a tick, and read by no
transition: a step from a state with another `power` gives the same next state but for `power`; the port `powered`
shows it, 0 for Off and 1 for On (R30). -/
def Obligations.PowerHasFiveWritersAndNoReader : Prop :=
  (∀ s t : State, Inv s → step s = .next t →
    let u := s.countdown
    let reset := s.hostNow.rst = true
    let exit := s.sync ≠ .idle ∧ u.po.fired = true ∧
      (s.sync.inPass = true ∨ (s.sync = .retry ∧ u.sl.fired = true))
    let success := s.sync = .final ∧ u.po.fired = false ∧ u.al.fired = false ∧ s.clk = true
    let start := s.cap = .armed ∧ s.fallingEdge = true
    let timeout := s.cap = .armed ∧ s.fallingEdge = false ∧ u.cpo.fired = true
    (reset → t.power = .off) ∧ (¬reset → exit → t.power = .off) ∧ (¬reset → success → t.power = .on) ∧
    (¬reset → start → t.power = .on) ∧ (¬reset → timeout → t.power = .off) ∧
    (¬reset → ¬exit → ¬success → ¬start → ¬timeout → t.power = s.power) ∧
    ¬(exit ∧ success) ∧ ¬(start ∧ timeout) ∧ ¬((exit ∨ success) ∧ (start ∨ timeout))) ∧
  (∀ (s : State) (p : PowerState), ∃ t q,
    step s = .next t ∧ step { s with power := p } = .next { t with power := q }) ∧
  (∀ s : State, (s.power = .off → s.outputs.powered = 0#1) ∧ (s.power = .on → s.outputs.powered = 1#1))

/-- `mag` and `std` are written by the completion step and by reset only; `val_valid` is set by the completion step
only, and cleared by an accepted READ_VALUE and by reset only (R23, R24, R32, R198). -/
def Obligations.MeasurementIsWrittenByCompletionOnly : Prop :=
  ∀ s t : State, Inv s → s.hostNow.rst = false → step s = .next t →
    let completes := s.cap = .settle ∧ s.countdown.bw.fired = true
    let accepts := s.busy = false ∧ s.hostNow.cmd = 2#2
    (completes → t.valValid = true ∧ t.std = (if s.data then .inch else .millimeter) ∧
      t.mag = decodeMagnitude s.acc (s.raw.getLsbD 21) s.data ∧ t.busy = false) ∧
    (¬completes → t.mag = s.mag ∧ t.std = s.std) ∧
    (accepts → t.valValid = false) ∧
    (¬completes → ¬accepts → t.valValid = s.valValid)

/-- `sync_result` is cleared by an accepted FIND_GAP, set by the two ends of a search together with the return to
`S_IDLE`, and changed by nothing else but reset (R31, R72). -/
def Obligations.SyncResultIsWrittenByTheSearchOnly : Prop :=
  ∀ s t : State, Inv s → s.hostNow.rst = false → step s = .next t →
    (s.busy = false → s.hostNow.cmd = 1#2 → t.syncResult = .noResult) ∧
    (s.busy = false → s.hostNow.cmd ≠ 1#2 → t.syncResult = s.syncResult) ∧
    (s.cap ≠ .idle → t.syncResult = s.syncResult) ∧
    (s.sync ≠ .idle → t.sync ≠ .idle → t.syncResult = s.syncResult) ∧
    (s.sync ≠ .idle → t.sync = .idle → (t.syncResult = .aligned ↔ s.sync = .prepos) ∧
      (t.syncResult = .powerOff ↔ s.sync ≠ .prepos))

/-- The results stand when `busy` falls: the step that makes a busy block idle writes the search's result into
`sync_result`, or `val_valid` with the measurement, `mag` and `std` (R72). -/
def Obligations.ResultsStandWhenBusyFalls : Prop :=
  ∀ s t : State, Inv s → s.hostNow.rst = false → s.busy = true → step s = .next t → t.busy = false →
    (s.sync ≠ .idle ∧ ((s.sync = .prepos ∧ t.syncResult = .aligned) ∨
      (s.sync ≠ .prepos ∧ t.syncResult = .powerOff))) ∨
    (s.cap = .settle ∧ t.valValid = true ∧ t.mag = decodeMagnitude s.acc (s.raw.getLsbD 21) s.data ∧
      t.std = (if s.data then .inch else .millimeter))

/-- The level of the data line counts at the trigger tick, at the sample ticks and at the flag's tick only: at every
other tick, a search's included, both levels give the same next state (R61, R111, R147). -/
def Obligations.DataLineCountsOnlyAtSampleTicks : Prop :=
  ∀ (s : State) (d : Level), s.countdown.samplesData = false →
    step s = step { s with lines := Feed.listing [⟨⟨s.clk, d⟩, 1⟩] s.linesNext }

/-- The eight output ports (R36). -/
def Obligations.OutputPortsShowTheState : Prop :=
  ∀ s : State,
    (s.outputs.busy = true ↔ s.sync ≠ .idle ∨ s.cap ≠ .idle) ∧
    (s.outputs.powered = 1#1 ↔ s.power = .on) ∧
    (s.outputs.syncResult = 0#2 ↔ s.syncResult = .noResult) ∧
    (s.outputs.syncResult = 1#2 ↔ s.syncResult = .aligned) ∧
    (s.outputs.syncResult = 2#2 ↔ s.syncResult = .powerOff) ∧ s.outputs.syncResult ≠ 3#2 ∧
    s.outputs.valValid = s.valValid ∧ s.outputs.mag = s.mag ∧ (s.outputs.std = 1#1 ↔ s.std = .inch) ∧
    (s.outputs.crit = true ↔ ∃ k, s.cap = .waitHi k ∨ s.cap = .waitLo k) ∧
    (s.outputs.irqEn = true ↔ s.cap = .armed)

/-! ## Encodings -/

/-- Decoding the encoding of an operation gives the operation, with every operand at every value (R80, R93, R96). -/
def Obligations.DecodeOfEncodeIsTheOperation : Prop :=
  ∀ i : Instr, i.wf = true → (encode i).decode = .ok i

/-- Words written out from the spec's encodings decode to their operations: the four command codes (R93, R98), and, at
their own sites, reset, the falling edge, a DECODE word and the frame with count 2500, sign 1 and flag 1. R115 and R190
give their operations no encoding: the sites, and the places of the bits in the DECODE word and of the flag in the
frame's word, are the model's choice, read from the patterns of spec/opcode_table.json (log entry 6). -/
def Obligations.SpecWordsDecodeToTheirOperations : Prop :=
  decodeAt .cmdPort 0b00 = .ok .nop ∧ decodeAt .cmdPort 0b01 = .ok .findGap ∧
  decodeAt .cmdPort 0b10 = .ok .readValue ∧ decodeAt .cmdPort 0b11 = .ok .reserved11 ∧
  decodeAt .rstPort 1 = .ok .rst ∧ decodeAt .edgeDetector 0b10 = .ok .fallingEdge ∧
  decodeAt .arithmetic 0b000010011100010011 = .ok (.decode 2500#16 true true) ∧
  decodeAt .serialLine 0x12009C4 = .ok (.frame24 0x2009C4#24 true)

/-- Every command code is an operation with that code, no two the same (R93, R98). -/
def Obligations.CommandCodesNameDistinctOperations : Prop :=
  ∀ c : CmdCode, encodeCmd (decodeCmd c) = some c

/-- The command placed by `withFetchWord` is the operation that the next step runs (R93, R211; the placing is the
model's, log entry 11). -/
def Obligations.PresentedCommandIsRunByTheNextStep : Prop :=
  ∀ (s : State) (w : Nat) (i : Instr), decodeTableWord 8 w = some i →
    ∃ t, exec i (s.withFetchWord 8 w).countdown = .next t ∧
      step (s.withFetchWord 8 w) = .next { t with
        clkPrev := s.clk
        host := s.hostNext, lines := s.linesNext }

/-! ## Successive frames -/

/-- Frames sent one after another are the reference waveform, for every waveform and every T_SETTLE: frame `i` has its
first falling edge `W_GAP` ticks after the return to high of the frame before; the clock is 0 in the low phases of its
cells and 1 at every other tick; bit `k` is on the data line at `F_k`, and the flag at `F_23 + T_SETTLE`, in the gap or
in a later frame, but where that tick is itself an `F_k`: there the two clauses of R296 ask for two levels, and that the
bit stands is the model's choice (R296; log entry 5). -/
def Obligations.SuccessiveFramesAreTheReferenceWaveform : Prop :=
  ∀ (f : Feed LineIn) (w : Waveform) (tSettle : Nat) (frames : List (RawFrame × Level)),
    1 ≤ w.wLo → 1 ≤ w.wHi → 1 ≤ w.wGap → 1 ≤ tSettle → f.pending = [] →
    let sent := frames.foldl (fun g p => g.sending w tSettle p.1 p.2) f
    let at_ := fun n => sent.nth LineIn.choice n
    let edge := fun i k =>
      ticksOf f.runs + w.lead tSettle + i * (w.frameTicks + w.wGap) + k * (w.wLo + w.wHi)
    (∀ i k j, i < frames.length → k < 24 → j < w.wLo → (at_ (edge i k + j)).clk = false) ∧
    (∀ i k j, i < frames.length → k < 23 → j < w.wHi → (at_ (edge i k + w.wLo + j)).clk = true) ∧
    (∀ i j, i < frames.length → j < w.wGap → (at_ (edge i 23 + w.wLo + j)).clk = true) ∧
    (∀ n, 0 < frames.length → edge (frames.length - 1) 23 + w.wLo ≤ n → (at_ n).clk = true) ∧
    (∀ (i k : Nat) (h : i < frames.length), k < 24 → (at_ (edge i k)).data = frames[i].1.getLsbD k) ∧
    (∀ (i : Nat) (h : i < frames.length),
      (∀ i' k, i' < frames.length → k < 24 → edge i 23 + tSettle ≠ edge i' k) →
      (at_ (edge i 23 + tSettle)).data = frames[i].2)

/-! ## The tick period -/

/-- T_TICK is read by no rule: with another tick period every operation and every step gives the same next state, that
period apart, and the output ports show the same levels. It only converts tick counts to time, at the default 1 µs a
tick, and reset keeps it (R7; that it is a whole number of microseconds, and that RST keeps it, are the model's
choices, log entries 15 and 2). -/
def Obligations.NoRuleReadsTheTickPeriod : Prop :=
  (∀ (i : Instr) (s t : State) (n : Nat), exec i s = .next t →
    exec i (s.withTickPeriod n) = .next (t.withTickPeriod n)) ∧
  (∀ (s t : State) (n : Nat), step s = .next t → step (s.withTickPeriod n) = .next (t.withTickPeriod n)) ∧
  (∀ (s : State) (n : Nat), (s.withTickPeriod n).outputs = s.outputs) ∧
  (∀ (s : State) (n ticks : Nat), microsecondsOf (s.withTickPeriod n).params ticks = ticks * n) ∧
  (∀ ticks : Nat, microsecondsOf State.reset.params ticks = ticks)
end

