-- ==== Sys2Proof/Laws/Operands.lean ====
section
/-! SUPPORT. The small lemmas of the feeds, the frame fields and the arithmetic. -/

namespace Sys2Proof.Machine

/-! ## Feeds -/

variable {α : Type}

@[simp] theorem popRun_nil : popRun ([] : List (Run α)) = none := rfl

@[simp] theorem popRun_none (v : α) (later : List (Run α)) : popRun (⟨v, 0⟩ :: later) = popRun later := rfl

@[simp] theorem popRun_one (v : α) (later : List (Run α)) : popRun (⟨v, 1⟩ :: later) = some (v, later) := rfl

@[simp] theorem popRun_more (v : α) (n : Nat) (later : List (Run α)) :
    popRun (⟨v, n + 2⟩ :: later) = some (v, ⟨v, n + 1⟩ :: later) := rfl

/-- A run of `n + 1` ticks presents its value and keeps `n` ticks, or goes. -/
theorem popRun_succ (v : α) (n : Nat) (later : List (Run α)) :
    popRun (⟨v, n + 1⟩ :: later) = some (v, if n = 0 then later else ⟨v, n⟩ :: later) := by
  cases n <;> rfl

/-- Runs present a value they list, and list from the next tick on what they listed before. -/
theorem popRun_vals (p : α → Prop) (runs : List (Run α)) (h : ∀ r ∈ runs, p r.val) (v : α) (later : List (Run α))
    (hp : popRun runs = some (v, later)) : p v ∧ ∀ r ∈ later, p r.val := by
  induction runs with
  | nil => simp at hp
  | cons r rest ih =>
    obtain ⟨hr, hrest⟩ := List.forall_mem_cons.mp h
    obtain ⟨w, n⟩ := r
    match n with
    | 0 => exact ih hrest hp
    | 1 =>
      obtain ⟨rfl, rfl⟩ : w = v ∧ rest = later := by simpa using hp
      exact ⟨hr, hrest⟩
    | n + 2 =>
      obtain ⟨rfl, rfl⟩ : w = v ∧ ⟨w, n + 1⟩ :: rest = later := by simpa using hp
      exact ⟨hr, List.forall_mem_cons.mpr ⟨hr, hrest⟩⟩

@[simp] theorem Feed.nth_zero (choice : Nat → Nat → α) (f : Feed α) : f.nth choice 0 = (f.pop choice).1 := rfl

@[simp] theorem Feed.nth_succ (choice : Nat → Nat → α) (n : Nat) (f : Feed α) :
    f.nth choice (n + 1) = (f.pop choice).2.nth choice n := rfl

@[simp] theorem Feed.pop_held (choice : Nat → Nat → α) (v : α) : (Feed.held v).pop choice = (v, Feed.held v) := rfl

@[simp] theorem Feed.pop_chosen (choice : Nat → Nat → α) (source : Nat) :
    (Feed.chosen source).pop choice = (choice source 0, { runs := [], pending := [], rest := .free source 1 }) := rfl

/-- A free feed presents what its agent chooses, tick after tick. -/
theorem Feed.nth_free (choice : Nat → Nat → α) (source tick n : Nat) :
    Feed.nth choice n { runs := [], pending := [], rest := .free source tick } = choice source (tick + n) := by
  induction n generalizing tick with
  | zero => rfl
  | succ n ih =>
    rw [Feed.nth_succ]
    exact (ih (tick + 1)).trans (by rw [Nat.add_right_comm, Nat.add_assoc])

@[simp] theorem Feed.nth_held (choice : Nat → Nat → α) (v : α) (n : Nat) : (Feed.held v).nth choice n = v := by
  induction n with
  | zero => rfl
  | succ n ih => simpa using ih

/-- A run of a feed presents its value, and the feed goes on with what is left of it. -/
theorem Feed.pop_listing_succ (choice : Nat → Nat → α) (v : α) (n : Nat) (runs : List (Run α)) (later : Feed α) :
    (Feed.listing (⟨v, n + 1⟩ :: runs) later).pop choice =
      (v, Feed.listing (if n = 0 then runs else ⟨v, n⟩ :: runs) later) := by
  cases n <;> rfl

@[simp] theorem Feed.listing_nil (later : Feed α) : Feed.listing [] later = later := rfl

/-- What holds of every value that a feed lists or repeats holds of every value it presents. -/
theorem Feed.nth_all (choice : Nat → Nat → α) (p : α → Prop) (first : α) (others : List (Run α)) (n : Nat)
    (runs pending : List (Run α)) (h : ∀ r ∈ runs, p r.val) (hp : ∀ r ∈ pending, p r.val) (hf : p first) (ho : ∀ r ∈ others, p r.val) :
    p (Feed.nth choice n { runs := runs, pending := pending, rest := .repeating first others }) := by
  induction n generalizing runs pending with
  | zero =>
    rw [Feed.nth_zero, Feed.pop]
    cases hr : popRun runs with
    | some q => exact (popRun_vals p runs h q.1 q.2 hr).1
    | none =>
      cases hq : popRun pending with
      | some q => exact (popRun_vals p pending hp q.1 q.2 hq).1
      | none => exact hf
  | succ n ih =>
    rw [Feed.nth_succ, Feed.pop]
    cases hr : popRun runs with
    | some q => exact ih q.2 pending (popRun_vals p runs h q.1 q.2 hr).2 hp
    | none =>
      cases hq : popRun pending with
      | some q => exact ih [] q.2 (by simp) (popRun_vals p pending hp q.1 q.2 hq).2
      | none => exact ih others [] ho (by simp)

/-! ## Runs, tick by tick -/

/-- What the runs present `n` ticks from now, if they last that long. -/
def tickAt : List (Run α) → Nat → Option α
  | [], _ => none
  | ⟨v, m⟩ :: later, n => if n < m then some v else tickAt later (n - m)

@[simp] theorem ticksOf_nil : ticksOf ([] : List (Run α)) = 0 := rfl

@[simp] theorem ticksOf_cons (r : Run α) (runs : List (Run α)) : ticksOf (r :: runs) = r.ticks + ticksOf runs := by
  simp [ticksOf]

@[simp] theorem ticksOf_append (runs later : List (Run α)) : ticksOf (runs ++ later) = ticksOf runs + ticksOf later := by
  simp [ticksOf]

/-- Runs present something exactly as long as they last. -/
theorem tickAt_isSome (runs : List (Run α)) (n : Nat) : (tickAt runs n).isSome = decide (n < ticksOf runs) := by
  induction runs generalizing n with
  | nil => simp [tickAt]
  | cons r later ih =>
    rw [tickAt]
    split
    · have : n < r.ticks + ticksOf later := by omega
      simp [this]
    · rw [ih]
      simp only [ticksOf_cons, decide_eq_decide]
      omega

theorem tickAt_append (runs later : List (Run α)) (n : Nat) :
    tickAt (runs ++ later) n = if n < ticksOf runs then tickAt runs n else tickAt later (n - ticksOf runs) := by
  induction runs generalizing n with
  | nil => simp
  | cons r rest ih =>
    rw [List.cons_append, tickAt, tickAt, ih, ticksOf_cons]
    split
    · rw [if_pos (by omega)]
    · by_cases h : n - r.ticks < ticksOf rest
      · rw [if_pos h, if_pos (by omega)]
      · rw [if_neg h, if_neg (by omega), Nat.sub_sub]

theorem tickAt_takeTicks (k : Nat) (runs : List (Run α)) (n : Nat) :
    tickAt (takeTicks k runs) n = if n < k then tickAt runs n else none := by
  induction runs generalizing k n with
  | nil => simp [takeTicks, tickAt]
  | cons r later ih =>
    rw [takeTicks]
    split
    · by_cases hn : n < k
      · simp [tickAt, hn, show n < r.ticks by omega]
      · simp [tickAt, hn]
    · rw [tickAt, ih, tickAt]
      by_cases hn : n < r.ticks
      · simp [hn, show n < k by omega]
      · simp only [hn, if_false]
        by_cases hk : n < k
        · rw [if_pos hk, if_pos (by omega)]
        · rw [if_neg hk, if_neg (by omega)]

theorem tickAt_dropTicks (k : Nat) (runs : List (Run α)) (n : Nat) :
    tickAt (dropTicks k runs) n = tickAt runs (k + n) := by
  induction runs generalizing k n with
  | nil => simp [dropTicks, tickAt]
  | cons r later ih =>
    rw [dropTicks]
    split
    · rw [tickAt, tickAt]
      by_cases hn : n < r.ticks - k
      · rw [if_pos hn, if_pos (by omega)]
      · rw [if_neg hn, if_neg (by omega)]
        congr 1
        omega
    · rw [ih, tickAt, if_neg (by omega)]
      congr 1
      omega

theorem ticksOf_takeTicks (k : Nat) (runs : List (Run α)) : ticksOf (takeTicks k runs) = min k (ticksOf runs) := by
  induction runs generalizing k with
  | nil => simp [takeTicks]
  | cons r later ih =>
    rw [takeTicks]
    split
    · simp; omega
    · simp [ih]; omega

theorem ticksOf_dropTicks (k : Nat) (runs : List (Run α)) : ticksOf (dropTicks k runs) = ticksOf runs - k := by
  induction runs generalizing k with
  | nil => simp [dropTicks]
  | cons r later ih =>
    rw [dropTicks]
    split
    · simp; omega
    · simp [ih]; omega

theorem tickAt_map {β : Type} (g : α → β) (runs : List (Run α)) (n : Nat) :
    tickAt (runs.map fun u => ⟨g u.val, u.ticks⟩) n = (tickAt runs n).map g := by
  induction runs generalizing n with
  | nil => rfl
  | cons r later ih =>
    rw [List.map_cons, tickAt, tickAt, ih]
    split <;> rfl

theorem ticksOf_map {β : Type} (g : α → β) (runs : List (Run α)) :
    ticksOf (runs.map fun u => (⟨g u.val, u.ticks⟩ : Run β)) = ticksOf runs := by
  induction runs with
  | nil => rfl
  | cons r later ih => simp [ih]

/-- What `popRun` answers: nothing from runs without a tick, else their first tick and the others. -/
theorem popRun_cases (runs : List (Run α)) :
    (popRun runs = none ∧ ticksOf runs = 0) ∨
    ∃ v later, popRun runs = some (v, later) ∧ ticksOf runs = ticksOf later + 1 ∧ tickAt runs 0 = some v ∧
      ∀ n, tickAt later n = tickAt runs (n + 1) := by
  induction runs with
  | nil => exact .inl ⟨rfl, rfl⟩
  | cons r rest ih =>
    obtain ⟨w, m⟩ := r
    match m with
    | 0 => simpa [tickAt] using ih
    | 1 => exact .inr ⟨w, rest, rfl, by simp [Nat.add_comm], rfl, fun n => by simp [tickAt]⟩
    | m + 2 =>
      refine .inr ⟨w, ⟨w, m + 1⟩ :: rest, rfl, by simp; omega, rfl, fun n => ?_⟩
      rw [tickAt, tickAt, Nat.add_sub_add_right]
      simp only [Nat.add_lt_add_iff_right]

/-- A feed presents its runs, then its pending runs. -/
theorem Feed.nth_of_tickAt (choice : Nat → Nat → α) (f : Feed α) (n : Nat) (v : α)
    (h : tickAt (f.runs ++ f.pending) n = some v) : f.nth choice n = v := by
  induction n generalizing f with
  | zero =>
    rw [Feed.nth_zero, Feed.pop]
    rcases popRun_cases f.runs with ⟨hr, hz⟩ | ⟨w, later, hr, hz, hw, -⟩
    · rcases popRun_cases f.pending with ⟨hp, hy⟩ | ⟨w, later, hp, -, hw, -⟩
      · have := tickAt_isSome (f.runs ++ f.pending) 0
        simp [h, hz, hy] at this
      · simp_all [tickAt_append]
    · simp_all [tickAt_append]
  | succ n ih =>
    rw [Feed.nth_succ]
    apply ih
    rw [Feed.pop]
    rcases popRun_cases f.runs with ⟨hr, hz⟩ | ⟨w, later, hr, hz, hw, hl⟩
    · rcases popRun_cases f.pending with ⟨hp, hy⟩ | ⟨w, later, hp, -, hw, hl⟩
      · have := tickAt_isSome (f.runs ++ f.pending) (n + 1)
        simp [h, hz, hy] at this
      · simp_all [tickAt_append]
    · simp_all [tickAt_append]

/-- A run keeps its length, its clock level, and its data level beyond the runs below. -/
theorem ticksOf_withData (r : Run LineIn) (under : List (Run LineIn)) : ticksOf (withData r under) = r.ticks := by
  simp [withData, ticksOf_map (fun u : LineIn => (⟨r.val.clk, u.data⟩ : LineIn)), ticksOf_takeTicks]
  omega

theorem tickAt_withData (r : Run LineIn) (under : List (Run LineIn)) (n : Nat) (h : n < r.ticks) :
    tickAt (withData r under) n = some ⟨r.val.clk, ((tickAt under n).getD r.val).data⟩ := by
  rw [withData, tickAt_append, ticksOf_map (fun u : LineIn => (⟨r.val.clk, u.data⟩ : LineIn)), ticksOf_takeTicks,
    tickAt_map (fun u : LineIn => (⟨r.val.clk, u.data⟩ : LineIn)), tickAt_takeTicks, if_pos h]
  have hs := tickAt_isSome under n
  by_cases hu : n < ticksOf under
  · rw [if_pos (by omega)]
    obtain ⟨v, hv⟩ := Option.isSome_iff_exists.mp (hs.trans (by simp [hu]))
    simp [hv]
  · rw [if_neg (by omega)]
    have : tickAt under n = none := by simpa [hu] using hs
    simp [tickAt, this]
    omega

/-- The tick is the first of a low run: it carries a bit. -/
def bitTick : List (Run LineIn) → Nat → Bool
  | [], _ => false
  | r :: later, n => if n < r.ticks then !r.val.clk && n == 0 else bitTick later (n - r.ticks)

/-- Runs laid over others last as long as they do alone. -/
theorem ticksOf_layOver (runs under : List (Run LineIn)) : ticksOf (layOver runs under) = ticksOf runs := by
  induction runs generalizing under with
  | nil => cases under <;> rfl
  | cons r later ih =>
    cases under with
    | nil => rfl
    | cons u us =>
      simp only [layOver, List.cons_append, ticksOf_cons, ticksOf_append, ticksOf_withData, ih]
      split <;> omega

/-- Each tick of runs laid over others: its own clock level, and its own data level where it carries a bit or the runs
below have ended, else theirs. -/
theorem tickAt_layOver (runs under : List (Run LineIn)) (n : Nat) (v : LineIn) (h : tickAt runs n = some v) :
    tickAt (layOver runs under) n =
      some ⟨v.clk, if bitTick runs n then v.data else ((tickAt under n).getD v).data⟩ := by
  induction runs generalizing under n with
  | nil => simp [tickAt] at h
  | cons r later ih =>
    cases under with
    | nil => simpa [layOver, tickAt] using h
    | cons u us =>
      rw [tickAt] at h
      have hbit : bitTick (r :: later) n = if n < r.ticks then !r.val.clk && n == 0 else bitTick later (n - r.ticks) :=
        rfl
      simp only [layOver, List.cons_append]
      rw [tickAt]
      generalize hk : (if r.val.clk = true then 0 else min 1 r.ticks) = kept
      have hkr : kept ≤ r.ticks := by split at hk <;> omega
      by_cases hn : n < r.ticks
      · rw [if_pos hn] at h
        obtain rfl : r.val = v := by simpa using h
        rw [hbit, if_pos hn]
        by_cases h0 : n < kept
        · rw [if_pos h0]
          cases hc : r.val.clk with
          | true => simp [hc] at hk; omega
          | false =>
            have hz : n = 0 := by simp [hc] at hk; omega
            obtain ⟨⟨c, d⟩, m⟩ := r
            obtain rfl : c = false := hc
            simp [hz]
        · rw [if_neg h0, tickAt_append, ticksOf_withData, if_pos (by simp; omega),
            tickAt_withData _ _ _ (by simp; omega), tickAt_dropTicks]
          have hb : (!r.val.clk && n == 0) = false := by
            cases hc : r.val.clk <;> simp [hc] at hk ⊢
            omega
          rw [hb, show kept + (n - kept) = n by omega]
          rfl
      · rw [if_neg hn] at h
        rw [hbit, if_neg hn, if_neg (by omega), tickAt_append, ticksOf_withData, if_neg (by simp; omega)]
        simp only [show n - kept - (r.ticks - kept) = n - r.ticks by omega]
        rw [ih _ _ h, tickAt_dropTicks, show r.ticks + (n - r.ticks) = n by omega]

@[simp] theorem layOver_nil (runs : List (Run LineIn)) : layOver runs [] = runs := by
  cases runs <;> rfl

theorem ticksOf_cellRuns (w : Waveform) (bits : RawFrame) (n k : Nat) :
    ticksOf (cellRuns w bits n k) = n * (w.wLo + w.wHi) := by
  induction n generalizing k with
  | zero => simp [cellRuns]
  | succ n ih =>
    simp only [cellRuns, ticksOf_cons, ih, Nat.succ_mul]
    omega

/-- A transmission lasts for what is left of the gap, the frame, and the flag in the next gap. -/
theorem ticksOf_frameRuns (w : Waveform) (tSettle : Nat) (bits : RawFrame) (flag : Level) :
    ticksOf (frameRuns w tSettle bits flag) = w.lead tSettle + w.frameTicks + w.flagHold tSettle := by
  simp only [frameRuns, burstRuns, ticksOf_cons, ticksOf_append, ticksOf_cellRuns, ticksOf_nil, Waveform.frameTicks]
  omega

/-- So with the gap before it a frame takes `W_FRAME + W_GAP` ticks, whatever T_SETTLE is (R296). -/
theorem ticksOf_frameRuns_eq_period (w : Waveform) (tSettle : Nat) (bits : RawFrame) (flag : Level) :
    ticksOf (frameRuns w tSettle bits flag) = w.frameTicks + w.wGap := by
  rw [ticksOf_frameRuns, Waveform.lead, Waveform.flagHold]
  omega

theorem ticksOf_lateRuns (w : Waveform) (tSettle : Nat) (flag : Level) :
    ticksOf (lateRuns w tSettle flag) = w.lateTicks tSettle := by
  rw [lateRuns]
  split <;> simp_all

/-- Where no flag is still to come, a frame is sent after what is listed. -/
theorem Feed.sending_of_settled (f : Feed LineIn) (w : Waveform) (tSettle : Nat) (bits : RawFrame) (flag : Level)
    (h : f.pending = []) : f.sending w tSettle bits flag =
      { runs := f.runs ++ frameRuns w tSettle bits flag, pending := lateRuns w tSettle flag,
        rest := .repeating .silence [] } := by
  simp [Feed.sending, h, dropTicks]

/-- A frame adds `W_FRAME + W_GAP` ticks to what is listed, whatever is still to come. -/
theorem Feed.ticksOf_sending_runs (f : Feed LineIn) (w : Waveform) (tSettle : Nat) (bits : RawFrame) (flag : Level) :
    ticksOf (f.sending w tSettle bits flag).runs = ticksOf f.runs + (w.frameTicks + w.wGap) := by
  simp [Feed.sending, ticksOf_layOver, ticksOf_frameRuns_eq_period]

/-- And leaves the ticks up to its flag still to come. -/
theorem Feed.ticksOf_sending_pending (f : Feed LineIn) (w : Waveform) (tSettle : Nat) (bits : RawFrame)
    (flag : Level) : ticksOf (f.sending w tSettle bits flag).pending = w.lateTicks tSettle := by
  simp [Feed.sending, ticksOf_layOver, ticksOf_lateRuns]

/-! ## Levels and frame fields -/

@[simp] theorem zext16_false : zext16 false = 0#16 := rfl
@[simp] theorem zext16_true : zext16 true = 1#16 := rfl
@[simp] theorem zext24_false : zext24 false = 0#24 := rfl
@[simp] theorem zext24_true : zext24 true = 1#24 := rfl

@[simp] theorem standardOf_false : standardOf false = .millimeter := rfl
@[simp] theorem standardOf_true : standardOf true = .inch := rfl

theorem zext16_getLsbD (d : Level) (j : Nat) : (zext16 d).getLsbD j = (decide (j = 0) && d) := by
  cases d <;> rcases j with _ | j <;> simp [BitVec.getLsbD_one]

theorem zext24_getLsbD (d : Level) (j : Nat) : (zext24 d).getLsbD j = (decide (j = 0) && d) := by
  cases d <;> rcases j with _ | j <;> simp [BitVec.getLsbD_one]

/-- A fold at or beyond index 16 leaves the accumulator. -/
theorem foldBit_high (acc : Half) (k : Nat) (d : Level) (h : 16 ≤ k) : foldBit acc k d = acc := by
  simp [foldBit, magnitudeBits, Nat.not_lt.mpr h]

/-- A fold below index 16 is the `or` of the shifted bit. -/
theorem foldBit_low (acc : Half) (k : Nat) (d : Level) (h : k < 16) :
    foldBit acc k d = acc ||| (zext16 d <<< k) := by
  simp [foldBit, magnitudeBits, h]

/-- The count is the low bits of the frame. -/
theorem frameCount_getLsbD (raw : RawFrame) (j : Nat) :
    (frameCount raw).getLsbD j = (decide (j < 16) && raw.getLsbD j) := by
  simp [frameCount]

/-! ## DECODE -/

@[simp] theorem halved_mm (acc : Half) : halved acc false = acc >>> 1 := rfl

theorem halved_inch (acc : Half) : halved acc true = (acc >>> 1) >>> 1 := rfl

theorem halved_mm_toNat (acc : Half) : (halved acc false).toNat = acc.toNat / 2 := by
  simp [halved, Nat.shiftRight_eq_div_pow]

theorem halved_inch_toNat (acc : Half) : (halved acc true).toNat = acc.toNat / 4 := by
  simp [halved, Nat.shiftRight_eq_div_pow]

@[simp] theorem decodeMagnitude_pos (acc : Half) (inch : Level) :
    decodeMagnitude acc false inch = halved acc inch := rfl

@[simp] theorem decodeMagnitude_neg (acc : Half) (inch : Level) :
    decodeMagnitude acc true inch = -(halved acc inch) := rfl

end Sys2Proof.Machine
end

