-- ==== Sys2Proof/Laws/State.lean ====
section
/-! SUPPORT. Each field of each update of the state, true by unfolding, so that no later proof unfolds an update. -/

namespace Sys2Proof.Machine

/-! ## `State.nextTick` -/

@[simp] theorem State.nextTick_sync (s : State) : s.nextTick.sync = s.sync := rfl
@[simp] theorem State.nextTick_cap (s : State) : s.nextTick.cap = s.cap := rfl
@[simp] theorem State.nextTick_power (s : State) : s.nextTick.power = s.power := rfl
@[simp] theorem State.nextTick_syncResult (s : State) : s.nextTick.syncResult = s.syncResult := rfl
@[simp] theorem State.nextTick_valValid (s : State) : s.nextTick.valValid = s.valValid := rfl
@[simp] theorem State.nextTick_mag (s : State) : s.nextTick.mag = s.mag := rfl
@[simp] theorem State.nextTick_std (s : State) : s.nextTick.std = s.std := rfl
@[simp] theorem State.nextTick_raw (s : State) : s.nextTick.raw = s.raw := rfl
@[simp] theorem State.nextTick_acc (s : State) : s.nextTick.acc = s.acc := rfl
@[simp] theorem State.nextTick_clkPrev (s : State) : s.nextTick.clkPrev = s.clkPrev := rfl
@[simp] theorem State.nextTick_po (s : State) : s.nextTick.po = s.po := rfl
@[simp] theorem State.nextTick_al (s : State) : s.nextTick.al = s.al := rfl
@[simp] theorem State.nextTick_sl (s : State) : s.nextTick.sl = s.sl := rfl
@[simp] theorem State.nextTick_cpo (s : State) : s.nextTick.cpo = s.cpo := rfl
@[simp] theorem State.nextTick_bw (s : State) : s.nextTick.bw = s.bw := rfl
@[simp] theorem State.nextTick_params (s : State) : s.nextTick.params = s.params := rfl
@[simp] theorem State.nextTick_wave (s : State) : s.nextTick.wave = s.wave := rfl
@[simp] theorem State.nextTick_host (s : State) : s.nextTick.host = s.hostNext := rfl
@[simp] theorem State.nextTick_lines (s : State) : s.nextTick.lines = s.linesNext := rfl
@[simp] theorem State.nextTick_returned (s : State) : s.nextTick.returned = s.returned := rfl

/-! ## `State.countdown` -/

@[simp] theorem State.countdown_sync (s : State) : s.countdown.sync = s.sync := rfl
@[simp] theorem State.countdown_cap (s : State) : s.countdown.cap = s.cap := rfl
@[simp] theorem State.countdown_power (s : State) : s.countdown.power = s.power := rfl
@[simp] theorem State.countdown_syncResult (s : State) : s.countdown.syncResult = s.syncResult := rfl
@[simp] theorem State.countdown_valValid (s : State) : s.countdown.valValid = s.valValid := rfl
@[simp] theorem State.countdown_mag (s : State) : s.countdown.mag = s.mag := rfl
@[simp] theorem State.countdown_std (s : State) : s.countdown.std = s.std := rfl
@[simp] theorem State.countdown_raw (s : State) : s.countdown.raw = s.raw := rfl
@[simp] theorem State.countdown_acc (s : State) : s.countdown.acc = s.acc := rfl
@[simp] theorem State.countdown_clkPrev (s : State) : s.countdown.clkPrev = s.clkPrev := rfl
@[simp] theorem State.countdown_po (s : State) : s.countdown.po = s.po.countdown := rfl
@[simp] theorem State.countdown_al (s : State) : s.countdown.al = s.al.countdown := rfl
@[simp] theorem State.countdown_sl (s : State) : s.countdown.sl = s.sl.countdown := rfl
@[simp] theorem State.countdown_cpo (s : State) : s.countdown.cpo = s.cpo.countdown := rfl
@[simp] theorem State.countdown_bw (s : State) : s.countdown.bw = s.bw.countdown := rfl
@[simp] theorem State.countdown_params (s : State) : s.countdown.params = s.params := rfl
@[simp] theorem State.countdown_wave (s : State) : s.countdown.wave = s.wave := rfl
@[simp] theorem State.countdown_host (s : State) : s.countdown.host = s.host := rfl
@[simp] theorem State.countdown_lines (s : State) : s.countdown.lines = s.lines := rfl
@[simp] theorem State.countdown_returned (s : State) : s.countdown.returned = s.returned := rfl

/-! ## `State.latchClock` -/

@[simp] theorem State.latchClock_sync (s : State) : s.latchClock.sync = s.sync := rfl
@[simp] theorem State.latchClock_cap (s : State) : s.latchClock.cap = s.cap := rfl
@[simp] theorem State.latchClock_power (s : State) : s.latchClock.power = s.power := rfl
@[simp] theorem State.latchClock_syncResult (s : State) : s.latchClock.syncResult = s.syncResult := rfl
@[simp] theorem State.latchClock_valValid (s : State) : s.latchClock.valValid = s.valValid := rfl
@[simp] theorem State.latchClock_mag (s : State) : s.latchClock.mag = s.mag := rfl
@[simp] theorem State.latchClock_std (s : State) : s.latchClock.std = s.std := rfl
@[simp] theorem State.latchClock_raw (s : State) : s.latchClock.raw = s.raw := rfl
@[simp] theorem State.latchClock_acc (s : State) : s.latchClock.acc = s.acc := rfl
@[simp] theorem State.latchClock_clkPrev (s : State) : s.latchClock.clkPrev = s.clk := rfl
@[simp] theorem State.latchClock_po (s : State) : s.latchClock.po = s.po := rfl
@[simp] theorem State.latchClock_al (s : State) : s.latchClock.al = s.al := rfl
@[simp] theorem State.latchClock_sl (s : State) : s.latchClock.sl = s.sl := rfl
@[simp] theorem State.latchClock_cpo (s : State) : s.latchClock.cpo = s.cpo := rfl
@[simp] theorem State.latchClock_bw (s : State) : s.latchClock.bw = s.bw := rfl
@[simp] theorem State.latchClock_params (s : State) : s.latchClock.params = s.params := rfl
@[simp] theorem State.latchClock_wave (s : State) : s.latchClock.wave = s.wave := rfl
@[simp] theorem State.latchClock_host (s : State) : s.latchClock.host = s.host := rfl
@[simp] theorem State.latchClock_lines (s : State) : s.latchClock.lines = s.lines := rfl
@[simp] theorem State.latchClock_returned (s : State) : s.latchClock.returned = s.returned := rfl

/-! ## `State.returning` -/

@[simp] theorem State.returning_sync (s : State) (r : Returned) : (s.returning r).sync = s.sync := rfl
@[simp] theorem State.returning_cap (s : State) (r : Returned) : (s.returning r).cap = s.cap := rfl
@[simp] theorem State.returning_power (s : State) (r : Returned) : (s.returning r).power = s.power := rfl
@[simp] theorem State.returning_syncResult (s : State) (r : Returned) : (s.returning r).syncResult = s.syncResult := rfl
@[simp] theorem State.returning_valValid (s : State) (r : Returned) : (s.returning r).valValid = s.valValid := rfl
@[simp] theorem State.returning_mag (s : State) (r : Returned) : (s.returning r).mag = s.mag := rfl
@[simp] theorem State.returning_std (s : State) (r : Returned) : (s.returning r).std = s.std := rfl
@[simp] theorem State.returning_raw (s : State) (r : Returned) : (s.returning r).raw = s.raw := rfl
@[simp] theorem State.returning_acc (s : State) (r : Returned) : (s.returning r).acc = s.acc := rfl
@[simp] theorem State.returning_clkPrev (s : State) (r : Returned) : (s.returning r).clkPrev = s.clkPrev := rfl
@[simp] theorem State.returning_po (s : State) (r : Returned) : (s.returning r).po = s.po := rfl
@[simp] theorem State.returning_al (s : State) (r : Returned) : (s.returning r).al = s.al := rfl
@[simp] theorem State.returning_sl (s : State) (r : Returned) : (s.returning r).sl = s.sl := rfl
@[simp] theorem State.returning_cpo (s : State) (r : Returned) : (s.returning r).cpo = s.cpo := rfl
@[simp] theorem State.returning_bw (s : State) (r : Returned) : (s.returning r).bw = s.bw := rfl
@[simp] theorem State.returning_params (s : State) (r : Returned) : (s.returning r).params = s.params := rfl
@[simp] theorem State.returning_wave (s : State) (r : Returned) : (s.returning r).wave = s.wave := rfl
@[simp] theorem State.returning_host (s : State) (r : Returned) : (s.returning r).host = s.host := rfl
@[simp] theorem State.returning_lines (s : State) (r : Returned) : (s.returning r).lines = s.lines := rfl
@[simp] theorem State.returning_returned (s : State) (r : Returned) : (s.returning r).returned = r := rfl

/-! ## `State.powerOffExit` -/

@[simp] theorem State.powerOffExit_sync (s : State) : s.powerOffExit.sync = .idle := rfl
@[simp] theorem State.powerOffExit_cap (s : State) : s.powerOffExit.cap = s.cap := rfl
@[simp] theorem State.powerOffExit_power (s : State) : s.powerOffExit.power = .off := rfl
@[simp] theorem State.powerOffExit_syncResult (s : State) : s.powerOffExit.syncResult = .powerOff := rfl
@[simp] theorem State.powerOffExit_valValid (s : State) : s.powerOffExit.valValid = s.valValid := rfl
@[simp] theorem State.powerOffExit_mag (s : State) : s.powerOffExit.mag = s.mag := rfl
@[simp] theorem State.powerOffExit_std (s : State) : s.powerOffExit.std = s.std := rfl
@[simp] theorem State.powerOffExit_raw (s : State) : s.powerOffExit.raw = s.raw := rfl
@[simp] theorem State.powerOffExit_acc (s : State) : s.powerOffExit.acc = s.acc := rfl
@[simp] theorem State.powerOffExit_clkPrev (s : State) : s.powerOffExit.clkPrev = s.clkPrev := rfl
@[simp] theorem State.powerOffExit_po (s : State) : s.powerOffExit.po = .stopped := rfl
@[simp] theorem State.powerOffExit_al (s : State) : s.powerOffExit.al = .stopped := rfl
@[simp] theorem State.powerOffExit_sl (s : State) : s.powerOffExit.sl = .stopped := rfl
@[simp] theorem State.powerOffExit_cpo (s : State) : s.powerOffExit.cpo = s.cpo := rfl
@[simp] theorem State.powerOffExit_bw (s : State) : s.powerOffExit.bw = s.bw := rfl
@[simp] theorem State.powerOffExit_params (s : State) : s.powerOffExit.params = s.params := rfl
@[simp] theorem State.powerOffExit_wave (s : State) : s.powerOffExit.wave = s.wave := rfl
@[simp] theorem State.powerOffExit_host (s : State) : s.powerOffExit.host = s.host := rfl
@[simp] theorem State.powerOffExit_lines (s : State) : s.powerOffExit.lines = s.lines := rfl
@[simp] theorem State.powerOffExit_returned (s : State) : s.powerOffExit.returned = s.returned := rfl

/-! ## `State.misalignmentExit` -/

@[simp] theorem State.misalignmentExit_sync (s : State) : s.misalignmentExit.sync = .retry := rfl
@[simp] theorem State.misalignmentExit_cap (s : State) : s.misalignmentExit.cap = s.cap := rfl
@[simp] theorem State.misalignmentExit_power (s : State) : s.misalignmentExit.power = s.power := rfl
@[simp] theorem State.misalignmentExit_syncResult (s : State) : s.misalignmentExit.syncResult = s.syncResult := rfl
@[simp] theorem State.misalignmentExit_valValid (s : State) : s.misalignmentExit.valValid = s.valValid := rfl
@[simp] theorem State.misalignmentExit_mag (s : State) : s.misalignmentExit.mag = s.mag := rfl
@[simp] theorem State.misalignmentExit_std (s : State) : s.misalignmentExit.std = s.std := rfl
@[simp] theorem State.misalignmentExit_raw (s : State) : s.misalignmentExit.raw = s.raw := rfl
@[simp] theorem State.misalignmentExit_acc (s : State) : s.misalignmentExit.acc = s.acc := rfl
@[simp] theorem State.misalignmentExit_clkPrev (s : State) : s.misalignmentExit.clkPrev = s.clkPrev := rfl
@[simp] theorem State.misalignmentExit_po (s : State) : s.misalignmentExit.po = s.po := rfl
@[simp] theorem State.misalignmentExit_al (s : State) : s.misalignmentExit.al = .stopped := rfl
@[simp] theorem State.misalignmentExit_sl (s : State) : s.misalignmentExit.sl = .running s.params.tRetry := rfl
@[simp] theorem State.misalignmentExit_cpo (s : State) : s.misalignmentExit.cpo = s.cpo := rfl
@[simp] theorem State.misalignmentExit_bw (s : State) : s.misalignmentExit.bw = s.bw := rfl
@[simp] theorem State.misalignmentExit_params (s : State) : s.misalignmentExit.params = s.params := rfl
@[simp] theorem State.misalignmentExit_wave (s : State) : s.misalignmentExit.wave = s.wave := rfl
@[simp] theorem State.misalignmentExit_host (s : State) : s.misalignmentExit.host = s.host := rfl
@[simp] theorem State.misalignmentExit_lines (s : State) : s.misalignmentExit.lines = s.lines := rfl
@[simp] theorem State.misalignmentExit_returned (s : State) : s.misalignmentExit.returned = s.returned := rfl

/-! ## `State.alignmentSuccess` -/

@[simp] theorem State.alignmentSuccess_sync (s : State) : s.alignmentSuccess.sync = .prepos := rfl
@[simp] theorem State.alignmentSuccess_cap (s : State) : s.alignmentSuccess.cap = s.cap := rfl
@[simp] theorem State.alignmentSuccess_power (s : State) : s.alignmentSuccess.power = .on := rfl
@[simp] theorem State.alignmentSuccess_syncResult (s : State) : s.alignmentSuccess.syncResult = s.syncResult := rfl
@[simp] theorem State.alignmentSuccess_valValid (s : State) : s.alignmentSuccess.valValid = s.valValid := rfl
@[simp] theorem State.alignmentSuccess_mag (s : State) : s.alignmentSuccess.mag = s.mag := rfl
@[simp] theorem State.alignmentSuccess_std (s : State) : s.alignmentSuccess.std = s.std := rfl
@[simp] theorem State.alignmentSuccess_raw (s : State) : s.alignmentSuccess.raw = s.raw := rfl
@[simp] theorem State.alignmentSuccess_acc (s : State) : s.alignmentSuccess.acc = s.acc := rfl
@[simp] theorem State.alignmentSuccess_clkPrev (s : State) : s.alignmentSuccess.clkPrev = s.clkPrev := rfl
@[simp] theorem State.alignmentSuccess_po (s : State) : s.alignmentSuccess.po = .stopped := rfl
@[simp] theorem State.alignmentSuccess_al (s : State) : s.alignmentSuccess.al = .stopped := rfl
@[simp] theorem State.alignmentSuccess_sl (s : State) : s.alignmentSuccess.sl = .running s.params.tPrepos := rfl
@[simp] theorem State.alignmentSuccess_cpo (s : State) : s.alignmentSuccess.cpo = s.cpo := rfl
@[simp] theorem State.alignmentSuccess_bw (s : State) : s.alignmentSuccess.bw = s.bw := rfl
@[simp] theorem State.alignmentSuccess_params (s : State) : s.alignmentSuccess.params = s.params := rfl
@[simp] theorem State.alignmentSuccess_wave (s : State) : s.alignmentSuccess.wave = s.wave := rfl
@[simp] theorem State.alignmentSuccess_host (s : State) : s.alignmentSuccess.host = s.host := rfl
@[simp] theorem State.alignmentSuccess_lines (s : State) : s.alignmentSuccess.lines = s.lines := rfl
@[simp] theorem State.alignmentSuccess_returned (s : State) : s.alignmentSuccess.returned = s.returned := rfl

/-! ## `State.completeSearch` -/

@[simp] theorem State.completeSearch_sync (s : State) : s.completeSearch.sync = .idle := rfl
@[simp] theorem State.completeSearch_cap (s : State) : s.completeSearch.cap = s.cap := rfl
@[simp] theorem State.completeSearch_power (s : State) : s.completeSearch.power = s.power := rfl
@[simp] theorem State.completeSearch_syncResult (s : State) : s.completeSearch.syncResult = .aligned := rfl
@[simp] theorem State.completeSearch_valValid (s : State) : s.completeSearch.valValid = s.valValid := rfl
@[simp] theorem State.completeSearch_mag (s : State) : s.completeSearch.mag = s.mag := rfl
@[simp] theorem State.completeSearch_std (s : State) : s.completeSearch.std = s.std := rfl
@[simp] theorem State.completeSearch_raw (s : State) : s.completeSearch.raw = s.raw := rfl
@[simp] theorem State.completeSearch_acc (s : State) : s.completeSearch.acc = s.acc := rfl
@[simp] theorem State.completeSearch_clkPrev (s : State) : s.completeSearch.clkPrev = s.clkPrev := rfl
@[simp] theorem State.completeSearch_po (s : State) : s.completeSearch.po = s.po := rfl
@[simp] theorem State.completeSearch_al (s : State) : s.completeSearch.al = s.al := rfl
@[simp] theorem State.completeSearch_sl (s : State) : s.completeSearch.sl = .stopped := rfl
@[simp] theorem State.completeSearch_cpo (s : State) : s.completeSearch.cpo = s.cpo := rfl
@[simp] theorem State.completeSearch_bw (s : State) : s.completeSearch.bw = s.bw := rfl
@[simp] theorem State.completeSearch_params (s : State) : s.completeSearch.params = s.params := rfl
@[simp] theorem State.completeSearch_wave (s : State) : s.completeSearch.wave = s.wave := rfl
@[simp] theorem State.completeSearch_host (s : State) : s.completeSearch.host = s.host := rfl
@[simp] theorem State.completeSearch_lines (s : State) : s.completeSearch.lines = s.lines := rfl
@[simp] theorem State.completeSearch_returned (s : State) : s.completeSearch.returned = s.returned := rfl

/-! ## `State.acceptReadValue` -/

@[simp] theorem State.acceptReadValue_sync (s : State) : s.acceptReadValue.sync = s.sync := rfl
@[simp] theorem State.acceptReadValue_cap (s : State) : s.acceptReadValue.cap = .armed := rfl
@[simp] theorem State.acceptReadValue_power (s : State) : s.acceptReadValue.power = s.power := rfl
@[simp] theorem State.acceptReadValue_syncResult (s : State) : s.acceptReadValue.syncResult = s.syncResult := rfl
@[simp] theorem State.acceptReadValue_valValid (s : State) : s.acceptReadValue.valValid = false := rfl
@[simp] theorem State.acceptReadValue_mag (s : State) : s.acceptReadValue.mag = s.mag := rfl
@[simp] theorem State.acceptReadValue_std (s : State) : s.acceptReadValue.std = s.std := rfl
@[simp] theorem State.acceptReadValue_raw (s : State) : s.acceptReadValue.raw = s.raw := rfl
@[simp] theorem State.acceptReadValue_acc (s : State) : s.acceptReadValue.acc = s.acc := rfl
@[simp] theorem State.acceptReadValue_clkPrev (s : State) : s.acceptReadValue.clkPrev = s.clkPrev := rfl
@[simp] theorem State.acceptReadValue_po (s : State) : s.acceptReadValue.po = s.po := rfl
@[simp] theorem State.acceptReadValue_al (s : State) : s.acceptReadValue.al = s.al := rfl
@[simp] theorem State.acceptReadValue_sl (s : State) : s.acceptReadValue.sl = s.sl := rfl
@[simp] theorem State.acceptReadValue_cpo (s : State) : s.acceptReadValue.cpo = .running s.params.tPowerOff := rfl
@[simp] theorem State.acceptReadValue_bw (s : State) : s.acceptReadValue.bw = s.bw := rfl
@[simp] theorem State.acceptReadValue_params (s : State) : s.acceptReadValue.params = s.params := rfl
@[simp] theorem State.acceptReadValue_wave (s : State) : s.acceptReadValue.wave = s.wave := rfl
@[simp] theorem State.acceptReadValue_host (s : State) : s.acceptReadValue.host = s.host := rfl
@[simp] theorem State.acceptReadValue_lines (s : State) : s.acceptReadValue.lines = s.lines := rfl
@[simp] theorem State.acceptReadValue_returned (s : State) : s.acceptReadValue.returned = s.returned := rfl

/-! ## `State.captureStart` -/

@[simp] theorem State.captureStart_sync (s : State) : s.captureStart.sync = s.sync := rfl
@[simp] theorem State.captureStart_cap (s : State) : s.captureStart.cap = .enter 1 := rfl
@[simp] theorem State.captureStart_power (s : State) : s.captureStart.power = .on := rfl
@[simp] theorem State.captureStart_syncResult (s : State) : s.captureStart.syncResult = s.syncResult := rfl
@[simp] theorem State.captureStart_valValid (s : State) : s.captureStart.valValid = s.valValid := rfl
@[simp] theorem State.captureStart_mag (s : State) : s.captureStart.mag = s.mag := rfl
@[simp] theorem State.captureStart_std (s : State) : s.captureStart.std = s.std := rfl
@[simp] theorem State.captureStart_raw (s : State) : s.captureStart.raw = zext24 s.data := rfl
@[simp] theorem State.captureStart_acc (s : State) : s.captureStart.acc = zext16 s.data := rfl
@[simp] theorem State.captureStart_clkPrev (s : State) : s.captureStart.clkPrev = s.clkPrev := rfl
@[simp] theorem State.captureStart_po (s : State) : s.captureStart.po = s.po := rfl
@[simp] theorem State.captureStart_al (s : State) : s.captureStart.al = s.al := rfl
@[simp] theorem State.captureStart_sl (s : State) : s.captureStart.sl = s.sl := rfl
@[simp] theorem State.captureStart_cpo (s : State) : s.captureStart.cpo = .stopped := rfl
@[simp] theorem State.captureStart_bw (s : State) : s.captureStart.bw = s.bw := rfl
@[simp] theorem State.captureStart_params (s : State) : s.captureStart.params = s.params := rfl
@[simp] theorem State.captureStart_wave (s : State) : s.captureStart.wave = s.wave := rfl
@[simp] theorem State.captureStart_host (s : State) : s.captureStart.host = s.host := rfl
@[simp] theorem State.captureStart_lines (s : State) : s.captureStart.lines = s.lines := rfl
@[simp] theorem State.captureStart_returned (s : State) : s.captureStart.returned = s.returned := rfl

/-! ## `State.armedTimeout` -/

@[simp] theorem State.armedTimeout_sync (s : State) : s.armedTimeout.sync = s.sync := rfl
@[simp] theorem State.armedTimeout_cap (s : State) : s.armedTimeout.cap = s.cap := rfl
@[simp] theorem State.armedTimeout_power (s : State) : s.armedTimeout.power = .off := rfl
@[simp] theorem State.armedTimeout_syncResult (s : State) : s.armedTimeout.syncResult = s.syncResult := rfl
@[simp] theorem State.armedTimeout_valValid (s : State) : s.armedTimeout.valValid = s.valValid := rfl
@[simp] theorem State.armedTimeout_mag (s : State) : s.armedTimeout.mag = s.mag := rfl
@[simp] theorem State.armedTimeout_std (s : State) : s.armedTimeout.std = s.std := rfl
@[simp] theorem State.armedTimeout_raw (s : State) : s.armedTimeout.raw = s.raw := rfl
@[simp] theorem State.armedTimeout_acc (s : State) : s.armedTimeout.acc = s.acc := rfl
@[simp] theorem State.armedTimeout_clkPrev (s : State) : s.armedTimeout.clkPrev = s.clkPrev := rfl
@[simp] theorem State.armedTimeout_po (s : State) : s.armedTimeout.po = s.po := rfl
@[simp] theorem State.armedTimeout_al (s : State) : s.armedTimeout.al = s.al := rfl
@[simp] theorem State.armedTimeout_sl (s : State) : s.armedTimeout.sl = s.sl := rfl
@[simp] theorem State.armedTimeout_cpo (s : State) : s.armedTimeout.cpo = .stopped := rfl
@[simp] theorem State.armedTimeout_bw (s : State) : s.armedTimeout.bw = s.bw := rfl
@[simp] theorem State.armedTimeout_params (s : State) : s.armedTimeout.params = s.params := rfl
@[simp] theorem State.armedTimeout_wave (s : State) : s.armedTimeout.wave = s.wave := rfl
@[simp] theorem State.armedTimeout_host (s : State) : s.armedTimeout.host = s.host := rfl
@[simp] theorem State.armedTimeout_lines (s : State) : s.armedTimeout.lines = s.lines := rfl
@[simp] theorem State.armedTimeout_returned (s : State) : s.armedTimeout.returned = s.returned := rfl

/-! ## `State.completeCapture` -/

@[simp] theorem State.completeCapture_sync (s : State) : s.completeCapture.sync = s.sync := rfl
@[simp] theorem State.completeCapture_cap (s : State) : s.completeCapture.cap = .idle := rfl
@[simp] theorem State.completeCapture_power (s : State) : s.completeCapture.power = s.power := rfl
@[simp] theorem State.completeCapture_syncResult (s : State) : s.completeCapture.syncResult = s.syncResult := rfl
@[simp] theorem State.completeCapture_valValid (s : State) : s.completeCapture.valValid = true := rfl
@[simp] theorem State.completeCapture_mag (s : State) : s.completeCapture.mag = decodeMagnitude s.acc (frameSign s.raw) s.data := rfl
@[simp] theorem State.completeCapture_std (s : State) : s.completeCapture.std = standardOf s.data := rfl
@[simp] theorem State.completeCapture_raw (s : State) : s.completeCapture.raw = s.raw := rfl
@[simp] theorem State.completeCapture_acc (s : State) : s.completeCapture.acc = s.acc := rfl
@[simp] theorem State.completeCapture_clkPrev (s : State) : s.completeCapture.clkPrev = s.clkPrev := rfl
@[simp] theorem State.completeCapture_po (s : State) : s.completeCapture.po = s.po := rfl
@[simp] theorem State.completeCapture_al (s : State) : s.completeCapture.al = s.al := rfl
@[simp] theorem State.completeCapture_sl (s : State) : s.completeCapture.sl = s.sl := rfl
@[simp] theorem State.completeCapture_cpo (s : State) : s.completeCapture.cpo = s.cpo := rfl
@[simp] theorem State.completeCapture_bw (s : State) : s.completeCapture.bw = .stopped := rfl
@[simp] theorem State.completeCapture_params (s : State) : s.completeCapture.params = s.params := rfl
@[simp] theorem State.completeCapture_wave (s : State) : s.completeCapture.wave = s.wave := rfl
@[simp] theorem State.completeCapture_host (s : State) : s.completeCapture.host = s.host := rfl
@[simp] theorem State.completeCapture_lines (s : State) : s.completeCapture.lines = s.lines := rfl
@[simp] theorem State.completeCapture_returned (s : State) : s.completeCapture.returned = s.returned := rfl

/-! ## `State.toReset` -/

@[simp] theorem State.toReset_sync (s : State) : s.toReset.sync = State.reset.sync := rfl
@[simp] theorem State.toReset_cap (s : State) : s.toReset.cap = State.reset.cap := rfl
@[simp] theorem State.toReset_power (s : State) : s.toReset.power = State.reset.power := rfl
@[simp] theorem State.toReset_syncResult (s : State) : s.toReset.syncResult = State.reset.syncResult := rfl
@[simp] theorem State.toReset_valValid (s : State) : s.toReset.valValid = State.reset.valValid := rfl
@[simp] theorem State.toReset_mag (s : State) : s.toReset.mag = State.reset.mag := rfl
@[simp] theorem State.toReset_std (s : State) : s.toReset.std = State.reset.std := rfl
@[simp] theorem State.toReset_raw (s : State) : s.toReset.raw = State.reset.raw := rfl
@[simp] theorem State.toReset_acc (s : State) : s.toReset.acc = State.reset.acc := rfl
@[simp] theorem State.toReset_clkPrev (s : State) : s.toReset.clkPrev = State.reset.clkPrev := rfl
@[simp] theorem State.toReset_po (s : State) : s.toReset.po = State.reset.po := rfl
@[simp] theorem State.toReset_al (s : State) : s.toReset.al = State.reset.al := rfl
@[simp] theorem State.toReset_sl (s : State) : s.toReset.sl = State.reset.sl := rfl
@[simp] theorem State.toReset_cpo (s : State) : s.toReset.cpo = State.reset.cpo := rfl
@[simp] theorem State.toReset_bw (s : State) : s.toReset.bw = State.reset.bw := rfl
@[simp] theorem State.toReset_params (s : State) : s.toReset.params = s.params := rfl
@[simp] theorem State.toReset_wave (s : State) : s.toReset.wave = s.wave := rfl
@[simp] theorem State.toReset_host (s : State) : s.toReset.host = s.host := rfl
@[simp] theorem State.toReset_lines (s : State) : s.toReset.lines = s.lines := rfl
@[simp] theorem State.toReset_returned (s : State) : s.toReset.returned = State.reset.returned := rfl

/-! ## `State.presentCommand` -/

@[simp] theorem State.presentCommand_sync (s : State) (cmd : CmdCode) : (s.presentCommand cmd).sync = .idle := rfl
@[simp] theorem State.presentCommand_cap (s : State) (cmd : CmdCode) : (s.presentCommand cmd).cap = .idle := rfl
@[simp] theorem State.presentCommand_power (s : State) (cmd : CmdCode) : (s.presentCommand cmd).power = s.power := rfl
@[simp] theorem State.presentCommand_syncResult (s : State) (cmd : CmdCode) : (s.presentCommand cmd).syncResult = s.syncResult := rfl
@[simp] theorem State.presentCommand_valValid (s : State) (cmd : CmdCode) : (s.presentCommand cmd).valValid = s.valValid := rfl
@[simp] theorem State.presentCommand_mag (s : State) (cmd : CmdCode) : (s.presentCommand cmd).mag = s.mag := rfl
@[simp] theorem State.presentCommand_std (s : State) (cmd : CmdCode) : (s.presentCommand cmd).std = s.std := rfl
@[simp] theorem State.presentCommand_raw (s : State) (cmd : CmdCode) : (s.presentCommand cmd).raw = s.raw := rfl
@[simp] theorem State.presentCommand_acc (s : State) (cmd : CmdCode) : (s.presentCommand cmd).acc = s.acc := rfl
@[simp] theorem State.presentCommand_clkPrev (s : State) (cmd : CmdCode) : (s.presentCommand cmd).clkPrev = s.clkPrev := rfl
@[simp] theorem State.presentCommand_po (s : State) (cmd : CmdCode) : (s.presentCommand cmd).po = .stopped := rfl
@[simp] theorem State.presentCommand_al (s : State) (cmd : CmdCode) : (s.presentCommand cmd).al = .stopped := rfl
@[simp] theorem State.presentCommand_sl (s : State) (cmd : CmdCode) : (s.presentCommand cmd).sl = .stopped := rfl
@[simp] theorem State.presentCommand_cpo (s : State) (cmd : CmdCode) : (s.presentCommand cmd).cpo = .stopped := rfl
@[simp] theorem State.presentCommand_bw (s : State) (cmd : CmdCode) : (s.presentCommand cmd).bw = .stopped := rfl
@[simp] theorem State.presentCommand_params (s : State) (cmd : CmdCode) : (s.presentCommand cmd).params = s.params := rfl
@[simp] theorem State.presentCommand_wave (s : State) (cmd : CmdCode) : (s.presentCommand cmd).wave = s.wave := rfl
@[simp] theorem State.presentCommand_host (s : State) (cmd : CmdCode) : (s.presentCommand cmd).host = Feed.listing [⟨⟨false, cmd⟩, 1⟩] s.hostNext := rfl
@[simp] theorem State.presentCommand_lines (s : State) (cmd : CmdCode) : (s.presentCommand cmd).lines = s.lines := rfl
@[simp] theorem State.presentCommand_returned (s : State) (cmd : CmdCode) : (s.presentCommand cmd).returned = s.returned := rfl

/-! ## `State.presentFrame` -/

@[simp] theorem State.presentFrame_sync (s : State) (bits : RawFrame) (flag : Level) : (s.presentFrame bits flag).sync = s.sync := rfl
@[simp] theorem State.presentFrame_cap (s : State) (bits : RawFrame) (flag : Level) : (s.presentFrame bits flag).cap = s.cap := rfl
@[simp] theorem State.presentFrame_power (s : State) (bits : RawFrame) (flag : Level) : (s.presentFrame bits flag).power = s.power := rfl
@[simp] theorem State.presentFrame_syncResult (s : State) (bits : RawFrame) (flag : Level) : (s.presentFrame bits flag).syncResult = s.syncResult := rfl
@[simp] theorem State.presentFrame_valValid (s : State) (bits : RawFrame) (flag : Level) : (s.presentFrame bits flag).valValid = s.valValid := rfl
@[simp] theorem State.presentFrame_mag (s : State) (bits : RawFrame) (flag : Level) : (s.presentFrame bits flag).mag = s.mag := rfl
@[simp] theorem State.presentFrame_std (s : State) (bits : RawFrame) (flag : Level) : (s.presentFrame bits flag).std = s.std := rfl
@[simp] theorem State.presentFrame_raw (s : State) (bits : RawFrame) (flag : Level) : (s.presentFrame bits flag).raw = s.raw := rfl
@[simp] theorem State.presentFrame_acc (s : State) (bits : RawFrame) (flag : Level) : (s.presentFrame bits flag).acc = s.acc := rfl
@[simp] theorem State.presentFrame_clkPrev (s : State) (bits : RawFrame) (flag : Level) : (s.presentFrame bits flag).clkPrev = s.clkPrev := rfl
@[simp] theorem State.presentFrame_po (s : State) (bits : RawFrame) (flag : Level) : (s.presentFrame bits flag).po = s.po := rfl
@[simp] theorem State.presentFrame_al (s : State) (bits : RawFrame) (flag : Level) : (s.presentFrame bits flag).al = s.al := rfl
@[simp] theorem State.presentFrame_sl (s : State) (bits : RawFrame) (flag : Level) : (s.presentFrame bits flag).sl = s.sl := rfl
@[simp] theorem State.presentFrame_cpo (s : State) (bits : RawFrame) (flag : Level) : (s.presentFrame bits flag).cpo = s.cpo := rfl
@[simp] theorem State.presentFrame_bw (s : State) (bits : RawFrame) (flag : Level) : (s.presentFrame bits flag).bw = s.bw := rfl
@[simp] theorem State.presentFrame_params (s : State) (bits : RawFrame) (flag : Level) : (s.presentFrame bits flag).params = s.params := rfl
@[simp] theorem State.presentFrame_wave (s : State) (bits : RawFrame) (flag : Level) : (s.presentFrame bits flag).wave = s.wave := rfl
@[simp] theorem State.presentFrame_host (s : State) (bits : RawFrame) (flag : Level) : (s.presentFrame bits flag).host = Feed.listing [⟨.silent, 1⟩] s.hostNext := rfl
@[simp] theorem State.presentFrame_lines (s : State) (bits : RawFrame) (flag : Level) : (s.presentFrame bits flag).lines =
    (Feed.held .silence).sending s.wave s.params.tSettle bits flag := rfl
@[simp] theorem State.presentFrame_returned (s : State) (bits : RawFrame) (flag : Level) : (s.presentFrame bits flag).returned = s.returned := rfl

/-! ## `State.presentDecode` -/

@[simp] theorem State.presentDecode_sync (s : State) (acc : Half) (neg : Bool) (inch : Level) :
    (s.presentDecode acc neg inch).sync = .idle := rfl
@[simp] theorem State.presentDecode_cap (s : State) (acc : Half) (neg : Bool) (inch : Level) :
    (s.presentDecode acc neg inch).cap = .settle := rfl
@[simp] theorem State.presentDecode_power (s : State) (acc : Half) (neg : Bool) (inch : Level) :
    (s.presentDecode acc neg inch).power = .on := rfl
@[simp] theorem State.presentDecode_syncResult (s : State) (acc : Half) (neg : Bool) (inch : Level) :
    (s.presentDecode acc neg inch).syncResult = s.syncResult := rfl
@[simp] theorem State.presentDecode_valValid (s : State) (acc : Half) (neg : Bool) (inch : Level) :
    (s.presentDecode acc neg inch).valValid = s.valValid := rfl
@[simp] theorem State.presentDecode_mag (s : State) (acc : Half) (neg : Bool) (inch : Level) :
    (s.presentDecode acc neg inch).mag = s.mag := rfl
@[simp] theorem State.presentDecode_std (s : State) (acc : Half) (neg : Bool) (inch : Level) :
    (s.presentDecode acc neg inch).std = s.std := rfl
@[simp] theorem State.presentDecode_raw (s : State) (acc : Half) (neg : Bool) (inch : Level) :
    (s.presentDecode acc neg inch).raw = acc.setWidth 24 ||| (zext24 neg <<< signIndex) := rfl
@[simp] theorem State.presentDecode_acc (s : State) (acc : Half) (neg : Bool) (inch : Level) :
    (s.presentDecode acc neg inch).acc = acc := rfl
@[simp] theorem State.presentDecode_clkPrev (s : State) (acc : Half) (neg : Bool) (inch : Level) :
    (s.presentDecode acc neg inch).clkPrev = s.clkPrev := rfl
@[simp] theorem State.presentDecode_po (s : State) (acc : Half) (neg : Bool) (inch : Level) :
    (s.presentDecode acc neg inch).po = .stopped := rfl
@[simp] theorem State.presentDecode_al (s : State) (acc : Half) (neg : Bool) (inch : Level) :
    (s.presentDecode acc neg inch).al = .stopped := rfl
@[simp] theorem State.presentDecode_sl (s : State) (acc : Half) (neg : Bool) (inch : Level) :
    (s.presentDecode acc neg inch).sl = .stopped := rfl
@[simp] theorem State.presentDecode_cpo (s : State) (acc : Half) (neg : Bool) (inch : Level) :
    (s.presentDecode acc neg inch).cpo = .stopped := rfl
@[simp] theorem State.presentDecode_bw (s : State) (acc : Half) (neg : Bool) (inch : Level) :
    (s.presentDecode acc neg inch).bw = .running 1 := rfl
@[simp] theorem State.presentDecode_params (s : State) (acc : Half) (neg : Bool) (inch : Level) :
    (s.presentDecode acc neg inch).params = s.params := rfl
@[simp] theorem State.presentDecode_wave (s : State) (acc : Half) (neg : Bool) (inch : Level) :
    (s.presentDecode acc neg inch).wave = s.wave := rfl
@[simp] theorem State.presentDecode_host (s : State) (acc : Half) (neg : Bool) (inch : Level) :
    (s.presentDecode acc neg inch).host = Feed.listing [⟨.silent, 1⟩] s.hostNext := rfl
@[simp] theorem State.presentDecode_lines (s : State) (acc : Half) (neg : Bool) (inch : Level) :
    (s.presentDecode acc neg inch).lines = Feed.listing [⟨⟨s.clk, inch⟩, 1⟩] s.linesNext := rfl
@[simp] theorem State.presentDecode_returned (s : State) (acc : Half) (neg : Bool) (inch : Level) :
    (s.presentDecode acc neg inch).returned = s.returned := rfl

end Sys2Proof.Machine
end

