-- ==== Sys2Proof/Laws/Ops.lean ====
section
/-! SUPPORT. What each shared operation can do, said once: the timers, the conditions, and the transitions of the
two state machines. -/

namespace Sys2Proof.Machine

/-! ## Timers -/

@[simp] theorem Timer.countdown_stopped : Timer.countdown .stopped = .stopped := rfl
@[simp] theorem Timer.countdown_running (n : Nat) : Timer.countdown (.running n) = .running (n - 1) := rfl
@[simp] theorem Timer.fired_stopped : Timer.fired .stopped = false := rfl

@[simp] theorem Timer.fired_running (n : Nat) : Timer.fired (.running n) = decide (n = 0) := by
  cases n <;> rfl

/-- A timer is fired exactly when it runs with nothing to go. -/
theorem Timer.fired_iff (t : Timer) : t.fired = true ↔ t = .running 0 := by
  cases t <;> simp

theorem Timer.countdown_eq_stopped (t : Timer) : t.countdown = .stopped ↔ t = .stopped := by
  cases t <;> simp

/-! ## Conditions -/

/-- Idle is both machines idle. -/
theorem State.isIdle_iff (s : State) : s.isIdle = true ↔ s.sync = .idle ∧ s.cap = .idle := by
  simp [State.isIdle]

/-- Busy is not idle. -/
theorem State.busy_iff (s : State) : s.busy = true ↔ ¬(s.sync = .idle ∧ s.cap = .idle) := by
  simp [State.busy, ← State.isIdle_iff]

/-- The level at the ports depends on the feeds alone. -/
theorem State.clk_congr {s t : State} (h : s.lines = t.lines) : s.clk = t.clk := by
  simp [State.clk, State.linesNow, h]

theorem State.data_congr {s t : State} (h : s.lines = t.lines) : s.data = t.data := by
  simp [State.data, State.linesNow, h]

@[simp] theorem State.countdown_clk (s : State) : s.countdown.clk = s.clk := rfl
@[simp] theorem State.countdown_data (s : State) : s.countdown.data = s.data := rfl
@[simp] theorem State.countdown_hostNow (s : State) : s.countdown.hostNow = s.hostNow := rfl
@[simp] theorem State.countdown_isIdle (s : State) : s.countdown.isIdle = s.isIdle := rfl
@[simp] theorem State.countdown_fallingEdge (s : State) : s.countdown.fallingEdge = s.fallingEdge := rfl

/-! ## The search -/

/-- A pass starts, unless the power-off timer has fired. -/
theorem State.startPass_cases (s : State) :
    (s.po.fired = true ∧ s.startPass = s.powerOffExit) ∨
    (s.po.fired = false ∧
      s.startPass = { s with al := .running s.params.tAlign, sync := .passHi 0 }) := by
  unfold State.startPass
  cases h : s.po.fired <;> simp

/-- A cell leads to the next one, or after the last to the final wait. -/
theorem afterCell_cases (k : Fin 24) :
    (k = 23 ∧ afterCell k = .final) ∨ (k ≠ 23 ∧ afterCell k = .passHi (k + 1)) := by
  revert k
  decide

/-- What a tick of a pass can do. -/
theorem State.passTick_cases (s w : State) :
    (s.po.fired = true ∧ s.passTick w = s.powerOffExit) ∨
    (s.po.fired = false ∧ s.al.fired = true ∧ s.passTick w = s.misalignmentExit) ∨
    (s.po.fired = false ∧ s.al.fired = false ∧ s.passTick w = w) := by
  unfold State.passTick
  cases h : s.po.fired <;> cases h' : s.al.fired <;> simp

/-- What the synchronizer's WAIT_HIGH can do. -/
theorem State.syncWaitHigh_cases (s : State) :
    (s.clk = true ∧ ∃ k, s.sync = .passHi k ∧ s.syncWaitHigh = { s with sync := .passLo k }) ∨
    (s.clk = true ∧ s.sync = .final ∧ s.syncWaitHigh = s.alignmentSuccess) ∨
    ((s.clk = false ∨ ((∀ k, s.sync ≠ .passHi k) ∧ s.sync ≠ .final)) ∧ s.syncWaitHigh = s) := by
  unfold State.syncWaitHigh
  cases hc : s.clk <;> cases hs : s.sync <;> simp

/-- What the synchronizer's WAIT_LOW can do. -/
theorem State.syncWaitLow_cases (s : State) :
    (s.clk = false ∧ ∃ k, s.sync = .passLo k ∧ s.syncWaitLow = { s with sync := afterCell k }) ∨
    ((s.clk = true ∨ ∀ k, s.sync ≠ .passLo k) ∧ s.syncWaitLow = s) := by
  unfold State.syncWaitLow
  cases hc : s.clk <;> cases hs : s.sync <;> simp

/-- What a tick of the search can do: the two exits, the cells, the success, the ends of the two sleeps, or
nothing. -/
theorem State.searchTick_cases (s : State) :
    (s.po.fired = true ∧ s.searchTick = s.powerOffExit) ∨
    (s.al.fired = true ∧ s.searchTick = s.misalignmentExit) ∨
    (∃ k, s.clk = true ∧ s.sync = .passHi k ∧ s.searchTick = { s with sync := .passLo k }) ∨
    (∃ k, s.clk = false ∧ s.sync = .passLo k ∧ s.searchTick = { s with sync := afterCell k }) ∨
    (s.clk = true ∧ s.sync = .final ∧ s.searchTick = s.alignmentSuccess) ∨
    (s.sl.fired = true ∧ s.sync = .retry ∧ s.searchTick = State.startPass { s with sl := .stopped }) ∨
    (s.sl.fired = true ∧ s.sync = .prepos ∧ s.searchTick = s.completeSearch) ∨
    s.searchTick = s := by
  unfold State.searchTick State.passTick State.syncWaitHigh State.syncWaitLow
  cases hs : s.sync <;> cases hp : s.po.fired <;> cases ha : s.al.fired <;> cases hl : s.sl.fired <;>
    cases hc : s.clk <;> simp

/-! ## The capture -/

/-- What a tick of the armed trigger can do. -/
theorem State.armedTick_cases (s : State) :
    (s.fallingEdge = true ∧ s.armedTick = s.captureStart) ∨
    (s.fallingEdge = false ∧ s.cpo.fired = true ∧ s.armedTick = s.armedTimeout) ∨
    (s.fallingEdge = false ∧ s.cpo.fired = false ∧ s.armedTick = s) := by
  unfold State.armedTick
  cases h : s.fallingEdge <;> cases h' : s.cpo.fired <;> simp

/-- A sample advances to the next bit, or after bit 23 to the settle delay. -/
theorem State.sampleBit_cases (s : State) (k : Fin 24) :
    (k ≠ 23 ∧ s.sampleBit k =
      { s with raw := storeBit s.raw k s.data, acc := foldBit s.acc k s.data, cap := .enter (k + 1) }) ∨
    (k = 23 ∧ s.sampleBit k =
      { s with raw := storeBit s.raw k s.data, acc := foldBit s.acc k s.data,
               bw := .running s.params.tSettle, cap := .settle }) := by
  by_cases h : k = 23
  · subst h
    exact .inr ⟨rfl, rfl⟩
  · refine .inl ⟨h, ?_⟩
    have hk : k.val < 23 := by omega
    have hv : (⟨k.val + 1, by omega⟩ : Fin 24) = k + 1 := by
      apply Fin.ext
      simp [Fin.val_add]
      omega
    simp [State.sampleBit, hk, hv]

/-- What a tick of the sampler can do. -/
theorem State.captureTick_cases (s : State) :
    (s.cap = .armed ∧ s.fallingEdge = true ∧ s.captureTick = s.captureStart) ∨
    (∃ k, s.cap = .enter k ∧ s.captureTick = { s with cap := .waitHi k }) ∨
    (∃ k, s.cap = .waitHi k ∧ s.clk = true ∧ s.captureTick = { s with cap := .waitLo k }) ∨
    (∃ k, s.cap = .waitLo k ∧ s.clk = false ∧ s.captureTick = s.sampleBit k) ∨
    (s.cap = .settle ∧ s.bw.fired = true ∧ s.captureTick = s.completeCapture) ∨
    s.captureTick = s := by
  unfold State.captureTick State.capWaitHigh State.capWaitLow
  cases hs : s.cap <;> cases he : s.fallingEdge <;> cases hb : s.bw.fired <;> cases hc : s.clk <;> simp

end Sys2Proof.Machine
end

