-- ==== Sys2Proof/Laws/Exec.lean ====
section
/-! SUPPORT. `exec` and `step` as equations: what each operation answers, and a step as one tick. -/

namespace Sys2Proof.Machine

/-! ## The operations -/

@[simp] theorem exec_nop (s : State) : exec .nop s = .next s := rfl
@[simp] theorem exec_reserved11 (s : State) : exec .reserved11 s = .next s := rfl
@[simp] theorem exec_rst (s : State) : exec .rst s = .next s.toReset := rfl

@[simp] theorem exec_findGap (s : State) :
    exec .findGap s = .next (if s.isIdle then s.acceptFindGap else s.searchTick) := rfl

@[simp] theorem exec_readValue (s : State) :
    exec .readValue s = .next (if s.isIdle then s.acceptReadValue
      else if s.sync = .idle then (if s.cap = .armed then s.armedTick else s.captureTick) else s) := rfl

@[simp] theorem exec_capture (s : State) :
    exec .capture s = .next (if s.sync = .idle then s.captureTick else s) := rfl

@[simp] theorem exec_isPowered (s : State) :
    exec .isPowered s = .next (s.returning (.powered s.powered)) := rfl

@[simp] theorem exec_readClock (s : State) : exec .readClock s = .next (s.returning (.level s.clk)) := rfl
@[simp] theorem exec_readData (s : State) : exec .readData s = .next (s.returning (.level s.data)) := rfl

@[simp] theorem exec_writeLine (line : Bool) (level : Level) (s : State) :
    exec (.writeLine line level) s = .next s := rfl

@[simp] theorem exec_waitHigh (s : State) :
    exec .waitHigh s = .next (if s.sync = .idle then s.capWaitHigh else s.syncWaitHigh) := rfl

@[simp] theorem exec_waitLow (s : State) :
    exec .waitLow s = .next (if s.sync = .idle then s.capWaitLow else s.syncWaitLow) := rfl

@[simp] theorem exec_fallingEdge (s : State) :
    exec .fallingEdge s = .next (s.latchClock.returning (.edge s.fallingEdge)) := rfl

@[simp] theorem exec_decode (acc : Half) (neg : Bool) (inch : Level) (s : State) :
    exec (.decode acc neg inch) s = .next (s.returning (.magnitude (decodeMagnitude acc neg inch))) := rfl

@[simp] theorem exec_frame24 (bits : RawFrame) (flag : Level) (s : State) :
    exec (.frame24 bits flag) s = .next { s with
      lines := s.lines.sending s.wave s.params.tSettle bits flag } := rfl

/-! ## The operation of a tick -/

/-- In a tick with reset, or of an idle block, the host's word is the operation. -/
theorem State.operation_of_host (s : State) (h : s.hostNow.rst = true ∨ s.isIdle = true) :
    s.operation = decodeHost s.hostNow := by
  rcases h with h | h <;> simp [State.operation, h]

/-- A search in progress is the operation. -/
theorem State.operation_of_search (s : State) (hr : s.hostNow.rst = false) (h : s.sync ≠ .idle) :
    s.operation = .findGap := by
  have hi : s.isIdle = false := by simp [State.isIdle, h]
  simp [State.operation, hr, hi, h]

/-- An armed trigger is READ_VALUE's. -/
theorem State.operation_of_armed (s : State) (hr : s.hostNow.rst = false) (hs : s.sync = .idle)
    (h : s.cap = .armed) : s.operation = .readValue := by
  simp [State.operation, State.isIdle, hr, hs, h]

/-- A capture in progress is the operation. -/
theorem State.operation_of_capture (s : State) (hr : s.hostNow.rst = false) (hs : s.sync = .idle)
    (hi : s.cap ≠ .idle) (ha : s.cap ≠ .armed) : s.operation = .capture := by
  cases hc : s.cap <;> simp_all [State.operation, State.isIdle]

/-! ## A tick -/

/-- The next state of a tick with reset. -/
theorem step_of_rst (s : State) (h : s.hostNow.rst = true) : step s = .next s.toReset.nextTick := by
  simp [step, State.operation, State.beginTick, State.endTick, decodeHost, h]

/-- The next state of a tick in which a search is in progress. -/
theorem step_of_search (s : State) (hr : s.hostNow.rst = false) (h : s.sync ≠ .idle) :
    step s = .next s.countdown.searchTick.latchClock.nextTick := by
  have hi : s.isIdle = false := by simp [State.isIdle, h]
  simp [step, State.operation_of_search s hr h, State.beginTick, State.endTick, hr, hi]

/-- The next state of a tick in which the trigger is armed. -/
theorem step_of_armed (s : State) (hr : s.hostNow.rst = false) (hs : s.sync = .idle) (h : s.cap = .armed) :
    step s = .next s.countdown.armedTick.latchClock.nextTick := by
  have hi : s.isIdle = false := by simp [State.isIdle, h]
  simp [step, State.operation_of_armed s hr hs h, State.beginTick, State.endTick, hr, hi, hs, h]

/-- The next state of a tick in which a capture is in progress. -/
theorem step_of_capture (s : State) (hr : s.hostNow.rst = false) (hs : s.sync = .idle)
    (hi : s.cap ≠ .idle) (ha : s.cap ≠ .armed) :
    step s = .next s.countdown.captureTick.latchClock.nextTick := by
  simp [step, State.operation_of_capture s hr hs hi ha, State.beginTick, State.endTick, hr, hs]

/-- The next state of a tick of an idle block, by the command code. -/
theorem step_of_idle (s : State) (hr : s.hostNow.rst = false) (h : s.isIdle = true) :
    step s = .next (State.nextTick (State.latchClock
      (if s.hostNow.cmd = 1#2 then s.countdown.acceptFindGap
       else if s.hostNow.cmd = 2#2 then s.countdown.acceptReadValue
       else s.countdown))) := by
  have hc : ∀ c : CmdCode, c = 0#2 ∨ c = 1#2 ∨ c = 2#2 ∨ c = 3#2 := by decide
  rcases hc s.hostNow.cmd with hc | hc | hc | hc <;>
    simp [step, State.operation_of_host s (.inr h), decodeHost, decodeCmd, State.beginTick, State.endTick,
      hr, hc, h]

/-- What a tick can do, said once: the reset, an idle tick, a tick of a search, of the armed trigger, of a capture. -/
theorem step_cases (s t : State) (h : step s = .next t) :
    (s.hostNow.rst = true ∧ t = s.toReset.nextTick) ∨
    (s.hostNow.rst = false ∧ s.isIdle = true ∧ t = State.nextTick (State.latchClock
      (if s.hostNow.cmd = 1#2 then s.countdown.acceptFindGap
       else if s.hostNow.cmd = 2#2 then s.countdown.acceptReadValue
       else s.countdown))) ∨
    (s.hostNow.rst = false ∧ s.sync ≠ .idle ∧ t = s.countdown.searchTick.latchClock.nextTick) ∨
    (s.hostNow.rst = false ∧ s.sync = .idle ∧ s.cap = .armed ∧
      t = s.countdown.armedTick.latchClock.nextTick) ∨
    (s.hostNow.rst = false ∧ s.sync = .idle ∧ s.cap ≠ .idle ∧ s.cap ≠ .armed ∧
      t = s.countdown.captureTick.latchClock.nextTick) := by
  cases hr : s.hostNow.rst with
  | true =>
    rw [step_of_rst s hr] at h
    exact .inl ⟨rfl, by simpa using h.symm⟩
  | false =>
    refine .inr ?_
    by_cases hs : s.sync = .idle
    · by_cases hi : s.cap = .idle
      · have hidle : s.isIdle = true := by simp [State.isIdle, hs, hi]
        rw [step_of_idle s hr hidle] at h
        exact .inl ⟨rfl, hidle, by simpa using h.symm⟩
      · by_cases ha : s.cap = .armed
        · rw [step_of_armed s hr hs ha] at h
          exact .inr (.inr (.inl ⟨rfl, hs, ha, by simpa using h.symm⟩))
        · rw [step_of_capture s hr hs hi ha] at h
          exact .inr (.inr (.inr ⟨rfl, hs, hi, ha, by simpa using h.symm⟩))
    · rw [step_of_search s hr hs] at h
      exact .inr (.inl ⟨rfl, hs, by simpa using h.symm⟩)

/-! ## Runs -/

@[simp] theorem after_zero (s t : State) : After 0 s t ↔ s = t := Iff.rfl

/-- A run of `n + 1` ticks is a tick and a run of `n`. -/
theorem after_succ (n : Nat) (s t : State) : After (n + 1) s t ↔ ∃ u, step s = .next u ∧ After n u t := Iff.rfl

/-- A machine's run that does not stop is a first step and a run. -/
theorem run_succ_eq_next (M : Host.Core) (n : Nat) (s t : M.State) :
    M.run (n + 1) s = .next t ↔ ∃ u, M.step s = .next u ∧ M.run n u = .next t := by
  rw [Host.Core.run]
  cases M.step s <;> simp

/-- `After` is the host's `run` of the machine. -/
theorem after_iff_run (n : Nat) (s t : State) : After n s t ↔ Sys2Proof.core.run n s = .next t := by
  induction n generalizing s with
  | zero =>
    show s = t ↔ Host.Outcome.next s = Host.Outcome.next t
    simp
  | succ n ih =>
    refine Iff.trans ?_ (run_succ_eq_next Sys2Proof.core n s t).symm
    constructor
    · rintro ⟨u, hu, h⟩
      exact ⟨u, hu, (ih u).mp h⟩
    · rintro ⟨u, hu, h⟩
      exact ⟨u, hu, (ih u).mpr h⟩

/-- Runs compose. -/
theorem after_add (m n : Nat) (s t u : State) (h : After m s t) (h' : After n t u) : After (m + n) s u := by
  induction m generalizing s with
  | zero => simp_all
  | succ m ih =>
    obtain ⟨v, hv, hm⟩ := (after_succ m s t).mp h
    rw [Nat.add_right_comm, after_succ]
    exact ⟨v, hv, ih v hm⟩

/-! ## The outside agents' feeds -/

/-- A host that never presents a reset presents none now. -/
theorem State.noReset_now (s : State) (h : s.noReset) : s.hostNow.rst = false := h 0

/-- And none from the next tick on. -/
theorem State.noReset_nextTick (s : State) (h : s.noReset) : s.nextTick.noReset := fun n => h (n + 1)

end Sys2Proof.Machine
end

