-- ==== Sys2Proof/Laws/Frames.lean ====
section
/-! SUPPORT. What no transition writes: `clk_prev`, the parameters, the feeds of the environment and the model's own
slot (spec/10_state.md R43, R51; spec/70_reset_and_hazards.md R285). -/

namespace Sys2Proof.Machine

@[simp] theorem State.startPass_clkPrev (s : State) : s.startPass.clkPrev = s.clkPrev := by
  rcases s.startPass_cases with ⟨_, e⟩ | ⟨_, e⟩ <;> simp [e]
@[simp] theorem State.startPass_params (s : State) : s.startPass.params = s.params := by
  rcases s.startPass_cases with ⟨_, e⟩ | ⟨_, e⟩ <;> simp [e]
@[simp] theorem State.startPass_wave (s : State) : s.startPass.wave = s.wave := by
  rcases s.startPass_cases with ⟨_, e⟩ | ⟨_, e⟩ <;> simp [e]
@[simp] theorem State.startPass_host (s : State) : s.startPass.host = s.host := by
  rcases s.startPass_cases with ⟨_, e⟩ | ⟨_, e⟩ <;> simp [e]
@[simp] theorem State.startPass_lines (s : State) : s.startPass.lines = s.lines := by
  rcases s.startPass_cases with ⟨_, e⟩ | ⟨_, e⟩ <;> simp [e]
@[simp] theorem State.startPass_returned (s : State) : s.startPass.returned = s.returned := by
  rcases s.startPass_cases with ⟨_, e⟩ | ⟨_, e⟩ <;> simp [e]

@[simp] theorem State.acceptFindGap_clkPrev (s : State) : s.acceptFindGap.clkPrev = s.clkPrev := by
  simp [State.acceptFindGap]
@[simp] theorem State.acceptFindGap_params (s : State) : s.acceptFindGap.params = s.params := by
  simp [State.acceptFindGap]
@[simp] theorem State.acceptFindGap_wave (s : State) : s.acceptFindGap.wave = s.wave := by
  simp [State.acceptFindGap]
@[simp] theorem State.acceptFindGap_host (s : State) : s.acceptFindGap.host = s.host := by
  simp [State.acceptFindGap]
@[simp] theorem State.acceptFindGap_lines (s : State) : s.acceptFindGap.lines = s.lines := by
  simp [State.acceptFindGap]
@[simp] theorem State.acceptFindGap_returned (s : State) : s.acceptFindGap.returned = s.returned := by
  simp [State.acceptFindGap]

@[simp] theorem State.searchTick_clkPrev (s : State) : s.searchTick.clkPrev = s.clkPrev := by
  rcases s.searchTick_cases with ⟨_, e⟩ | ⟨_, e⟩ | ⟨k, _, _, e⟩ | ⟨k, _, _, e⟩ | ⟨_, _, e⟩ | ⟨_, _, e⟩ |
    ⟨_, _, e⟩ | e <;> simp [e]
@[simp] theorem State.searchTick_params (s : State) : s.searchTick.params = s.params := by
  rcases s.searchTick_cases with ⟨_, e⟩ | ⟨_, e⟩ | ⟨k, _, _, e⟩ | ⟨k, _, _, e⟩ | ⟨_, _, e⟩ | ⟨_, _, e⟩ |
    ⟨_, _, e⟩ | e <;> simp [e]
@[simp] theorem State.searchTick_wave (s : State) : s.searchTick.wave = s.wave := by
  rcases s.searchTick_cases with ⟨_, e⟩ | ⟨_, e⟩ | ⟨k, _, _, e⟩ | ⟨k, _, _, e⟩ | ⟨_, _, e⟩ | ⟨_, _, e⟩ |
    ⟨_, _, e⟩ | e <;> simp [e]
@[simp] theorem State.searchTick_host (s : State) : s.searchTick.host = s.host := by
  rcases s.searchTick_cases with ⟨_, e⟩ | ⟨_, e⟩ | ⟨k, _, _, e⟩ | ⟨k, _, _, e⟩ | ⟨_, _, e⟩ | ⟨_, _, e⟩ |
    ⟨_, _, e⟩ | e <;> simp [e]
@[simp] theorem State.searchTick_lines (s : State) : s.searchTick.lines = s.lines := by
  rcases s.searchTick_cases with ⟨_, e⟩ | ⟨_, e⟩ | ⟨k, _, _, e⟩ | ⟨k, _, _, e⟩ | ⟨_, _, e⟩ | ⟨_, _, e⟩ |
    ⟨_, _, e⟩ | e <;> simp [e]
@[simp] theorem State.searchTick_returned (s : State) : s.searchTick.returned = s.returned := by
  rcases s.searchTick_cases with ⟨_, e⟩ | ⟨_, e⟩ | ⟨k, _, _, e⟩ | ⟨k, _, _, e⟩ | ⟨_, _, e⟩ | ⟨_, _, e⟩ |
    ⟨_, _, e⟩ | e <;> simp [e]

@[simp] theorem State.armedTick_clkPrev (s : State) : s.armedTick.clkPrev = s.clkPrev := by
  rcases s.armedTick_cases with ⟨_, e⟩ | ⟨_, _, e⟩ | ⟨_, _, e⟩ <;> simp [e]
@[simp] theorem State.armedTick_params (s : State) : s.armedTick.params = s.params := by
  rcases s.armedTick_cases with ⟨_, e⟩ | ⟨_, _, e⟩ | ⟨_, _, e⟩ <;> simp [e]
@[simp] theorem State.armedTick_wave (s : State) : s.armedTick.wave = s.wave := by
  rcases s.armedTick_cases with ⟨_, e⟩ | ⟨_, _, e⟩ | ⟨_, _, e⟩ <;> simp [e]
@[simp] theorem State.armedTick_host (s : State) : s.armedTick.host = s.host := by
  rcases s.armedTick_cases with ⟨_, e⟩ | ⟨_, _, e⟩ | ⟨_, _, e⟩ <;> simp [e]
@[simp] theorem State.armedTick_lines (s : State) : s.armedTick.lines = s.lines := by
  rcases s.armedTick_cases with ⟨_, e⟩ | ⟨_, _, e⟩ | ⟨_, _, e⟩ <;> simp [e]
@[simp] theorem State.armedTick_returned (s : State) : s.armedTick.returned = s.returned := by
  rcases s.armedTick_cases with ⟨_, e⟩ | ⟨_, _, e⟩ | ⟨_, _, e⟩ <;> simp [e]

@[simp] theorem State.sampleBit_clkPrev (s : State) (k : Fin 24) : (s.sampleBit k).clkPrev = s.clkPrev := by
  rcases s.sampleBit_cases k with ⟨_, e⟩ | ⟨_, e⟩ <;> simp [e]
@[simp] theorem State.sampleBit_params (s : State) (k : Fin 24) : (s.sampleBit k).params = s.params := by
  rcases s.sampleBit_cases k with ⟨_, e⟩ | ⟨_, e⟩ <;> simp [e]
@[simp] theorem State.sampleBit_wave (s : State) (k : Fin 24) : (s.sampleBit k).wave = s.wave := by
  rcases s.sampleBit_cases k with ⟨_, e⟩ | ⟨_, e⟩ <;> simp [e]
@[simp] theorem State.sampleBit_host (s : State) (k : Fin 24) : (s.sampleBit k).host = s.host := by
  rcases s.sampleBit_cases k with ⟨_, e⟩ | ⟨_, e⟩ <;> simp [e]
@[simp] theorem State.sampleBit_lines (s : State) (k : Fin 24) : (s.sampleBit k).lines = s.lines := by
  rcases s.sampleBit_cases k with ⟨_, e⟩ | ⟨_, e⟩ <;> simp [e]
@[simp] theorem State.sampleBit_returned (s : State) (k : Fin 24) : (s.sampleBit k).returned = s.returned := by
  rcases s.sampleBit_cases k with ⟨_, e⟩ | ⟨_, e⟩ <;> simp [e]

@[simp] theorem State.captureTick_clkPrev (s : State) : s.captureTick.clkPrev = s.clkPrev := by
  rcases s.captureTick_cases with ⟨_, _, e⟩ | ⟨k, _, e⟩ | ⟨k, _, _, e⟩ | ⟨k, _, _, e⟩ | ⟨_, _, e⟩ | e <;>
    simp [e]
@[simp] theorem State.captureTick_params (s : State) : s.captureTick.params = s.params := by
  rcases s.captureTick_cases with ⟨_, _, e⟩ | ⟨k, _, e⟩ | ⟨k, _, _, e⟩ | ⟨k, _, _, e⟩ | ⟨_, _, e⟩ | e <;>
    simp [e]
@[simp] theorem State.captureTick_wave (s : State) : s.captureTick.wave = s.wave := by
  rcases s.captureTick_cases with ⟨_, _, e⟩ | ⟨k, _, e⟩ | ⟨k, _, _, e⟩ | ⟨k, _, _, e⟩ | ⟨_, _, e⟩ | e <;>
    simp [e]
@[simp] theorem State.captureTick_host (s : State) : s.captureTick.host = s.host := by
  rcases s.captureTick_cases with ⟨_, _, e⟩ | ⟨k, _, e⟩ | ⟨k, _, _, e⟩ | ⟨k, _, _, e⟩ | ⟨_, _, e⟩ | e <;>
    simp [e]
@[simp] theorem State.captureTick_lines (s : State) : s.captureTick.lines = s.lines := by
  rcases s.captureTick_cases with ⟨_, _, e⟩ | ⟨k, _, e⟩ | ⟨k, _, _, e⟩ | ⟨k, _, _, e⟩ | ⟨_, _, e⟩ | e <;>
    simp [e]
@[simp] theorem State.captureTick_returned (s : State) : s.captureTick.returned = s.returned := by
  rcases s.captureTick_cases with ⟨_, _, e⟩ | ⟨k, _, e⟩ | ⟨k, _, _, e⟩ | ⟨k, _, _, e⟩ | ⟨_, _, e⟩ | e <;>
    simp [e]

end Sys2Proof.Machine
end

