-- ==== Sys2Proof/Laws/PerInstr.lean ====
section
/-! SUPPORT. The family of statements made for each operation: its word has no bit beyond the width of its site. -/

namespace Sys2Proof.Laws.EncodeFits

/-- The word of the operation fits its site. -/
def Statement (i : Instr) : Prop := (encode i).bits < 2 ^ (encode i).site.width

theorem nop : Statement .nop := by unfold Statement; decide
theorem findGap : Statement .findGap := by unfold Statement; decide
theorem readValue : Statement .readValue := by unfold Statement; decide
theorem reserved11 : Statement .reserved11 := by unfold Statement; decide
theorem rst : Statement .rst := by unfold Statement; decide
theorem isPowered : Statement .isPowered := by unfold Statement; decide
theorem readClock : Statement .readClock := by unfold Statement; decide
theorem readData : Statement .readData := by unfold Statement; decide

theorem writeLine (line : Bool) (level : Level) : Statement (.writeLine line level) := by
  cases line <;> cases level <;> (unfold Statement; decide)

theorem waitHigh : Statement .waitHigh := by unfold Statement; decide
theorem waitLow : Statement .waitLow := by unfold Statement; decide
theorem fallingEdge : Statement .fallingEdge := by unfold Statement; decide
theorem capture : Statement .capture := by unfold Statement; decide

theorem decode (acc : Half) (neg : Bool) (inch : Level) : Statement (.decode acc neg inch) := by
  have hn := Bool.toNat_le neg
  have hi := Bool.toNat_le inch
  have ha := acc.isLt
  simp only [Statement, encode, Site.width]
  omega

theorem frame24 (bits : RawFrame) (flag : Level) : Statement (.frame24 bits flag) := by
  have hf := Bool.toNat_le flag
  have hb := bits.isLt
  simp only [Statement, encode, Site.width]
  omega

end Sys2Proof.Laws.EncodeFits
end

