-- ==== Sys2Proof/Laws/TickPeriod.lean ====
section
/-! SUPPORT. The tick period is only carried along (spec/00_scope.md R7): what each field, condition and transition
is with another period. -/

namespace Sys2Proof.Machine

variable (s : State) (n : Nat)

/-! ## Fields -/

@[simp] theorem State.withTickPeriod_sync : (s.withTickPeriod n).sync = s.sync := rfl
@[simp] theorem State.withTickPeriod_cap : (s.withTickPeriod n).cap = s.cap := rfl
@[simp] theorem State.withTickPeriod_power : (s.withTickPeriod n).power = s.power := rfl
@[simp] theorem State.withTickPeriod_syncResult : (s.withTickPeriod n).syncResult = s.syncResult := rfl
@[simp] theorem State.withTickPeriod_valValid : (s.withTickPeriod n).valValid = s.valValid := rfl
@[simp] theorem State.withTickPeriod_mag : (s.withTickPeriod n).mag = s.mag := rfl
@[simp] theorem State.withTickPeriod_std : (s.withTickPeriod n).std = s.std := rfl
@[simp] theorem State.withTickPeriod_raw : (s.withTickPeriod n).raw = s.raw := rfl
@[simp] theorem State.withTickPeriod_acc : (s.withTickPeriod n).acc = s.acc := rfl
@[simp] theorem State.withTickPeriod_clkPrev : (s.withTickPeriod n).clkPrev = s.clkPrev := rfl
@[simp] theorem State.withTickPeriod_po : (s.withTickPeriod n).po = s.po := rfl
@[simp] theorem State.withTickPeriod_al : (s.withTickPeriod n).al = s.al := rfl
@[simp] theorem State.withTickPeriod_sl : (s.withTickPeriod n).sl = s.sl := rfl
@[simp] theorem State.withTickPeriod_cpo : (s.withTickPeriod n).cpo = s.cpo := rfl
@[simp] theorem State.withTickPeriod_bw : (s.withTickPeriod n).bw = s.bw := rfl
@[simp] theorem State.withTickPeriod_wave : (s.withTickPeriod n).wave = s.wave := rfl
@[simp] theorem State.withTickPeriod_host : (s.withTickPeriod n).host = s.host := rfl
@[simp] theorem State.withTickPeriod_lines : (s.withTickPeriod n).lines = s.lines := rfl
@[simp] theorem State.withTickPeriod_returned : (s.withTickPeriod n).returned = s.returned := rfl

@[simp] theorem State.withTickPeriod_params : (s.withTickPeriod n).params = { s.params with tTick := n } := rfl

/-! ## What a tick looks at -/

@[simp] theorem State.withTickPeriod_clk : (s.withTickPeriod n).clk = s.clk := rfl
@[simp] theorem State.withTickPeriod_data : (s.withTickPeriod n).data = s.data := rfl
@[simp] theorem State.withTickPeriod_hostNow : (s.withTickPeriod n).hostNow = s.hostNow := rfl
@[simp] theorem State.withTickPeriod_isIdle : (s.withTickPeriod n).isIdle = s.isIdle := rfl
@[simp] theorem State.withTickPeriod_fallingEdge : (s.withTickPeriod n).fallingEdge = s.fallingEdge := rfl
@[simp] theorem State.withTickPeriod_busy : (s.withTickPeriod n).busy = s.busy := rfl
@[simp] theorem State.withTickPeriod_powered : (s.withTickPeriod n).powered = s.powered := rfl
@[simp] theorem State.withTickPeriod_operation : (s.withTickPeriod n).operation = s.operation := rfl
@[simp] theorem State.withTickPeriod_outputs : (s.withTickPeriod n).outputs = s.outputs := rfl

/-! ## The transitions -/

@[simp] theorem State.withTickPeriod_countdown : (s.withTickPeriod n).countdown = s.countdown.withTickPeriod n := rfl
@[simp] theorem State.withTickPeriod_latchClock : (s.withTickPeriod n).latchClock = s.latchClock.withTickPeriod n := rfl
@[simp] theorem State.withTickPeriod_nextTick : (s.withTickPeriod n).nextTick = s.nextTick.withTickPeriod n := rfl
@[simp] theorem State.withTickPeriod_powerOffExit : (s.withTickPeriod n).powerOffExit = s.powerOffExit.withTickPeriod n := rfl
@[simp] theorem State.withTickPeriod_misalignmentExit : (s.withTickPeriod n).misalignmentExit = s.misalignmentExit.withTickPeriod n := rfl
@[simp] theorem State.withTickPeriod_alignmentSuccess : (s.withTickPeriod n).alignmentSuccess = s.alignmentSuccess.withTickPeriod n := rfl
@[simp] theorem State.withTickPeriod_completeSearch : (s.withTickPeriod n).completeSearch = s.completeSearch.withTickPeriod n := rfl
@[simp] theorem State.withTickPeriod_acceptReadValue : (s.withTickPeriod n).acceptReadValue = s.acceptReadValue.withTickPeriod n := rfl
@[simp] theorem State.withTickPeriod_captureStart : (s.withTickPeriod n).captureStart = s.captureStart.withTickPeriod n := rfl
@[simp] theorem State.withTickPeriod_armedTimeout : (s.withTickPeriod n).armedTimeout = s.armedTimeout.withTickPeriod n := rfl
@[simp] theorem State.withTickPeriod_completeCapture : (s.withTickPeriod n).completeCapture = s.completeCapture.withTickPeriod n := rfl
@[simp] theorem State.withTickPeriod_toReset : (s.withTickPeriod n).toReset = s.toReset.withTickPeriod n := rfl
@[simp] theorem State.withTickPeriod_returning (r : Returned) :
    (s.withTickPeriod n).returning r = (s.returning r).withTickPeriod n := rfl

@[simp] theorem State.withTickPeriod_startPass : (s.withTickPeriod n).startPass = s.startPass.withTickPeriod n := by
  unfold State.startPass
  by_cases h : s.po.fired <;> simp [h] <;> rfl

@[simp] theorem State.withTickPeriod_acceptFindGap :
    (s.withTickPeriod n).acceptFindGap = s.acceptFindGap.withTickPeriod n :=
  State.withTickPeriod_startPass { s with syncResult := .noResult, po := .running s.params.tPowerOff } n

@[simp] theorem State.withTickPeriod_syncWaitHigh :
    (s.withTickPeriod n).syncWaitHigh = s.syncWaitHigh.withTickPeriod n := by
  unfold State.syncWaitHigh
  cases h : s.clk <;> cases hs : s.sync <;> simp [h, hs] <;> rfl

@[simp] theorem State.withTickPeriod_syncWaitLow :
    (s.withTickPeriod n).syncWaitLow = s.syncWaitLow.withTickPeriod n := by
  unfold State.syncWaitLow
  cases h : s.clk <;> cases hs : s.sync <;> simp [h, hs] <;> rfl

@[simp] theorem State.withTickPeriod_passTick (w : State) :
    (s.withTickPeriod n).passTick (w.withTickPeriod n) = (s.passTick w).withTickPeriod n := by
  unfold State.passTick
  by_cases hp : s.po.fired <;> by_cases ha : s.al.fired <;> simp [hp, ha]

@[simp] theorem State.withTickPeriod_searchTick :
    (s.withTickPeriod n).searchTick = s.searchTick.withTickPeriod n := by
  unfold State.searchTick
  cases hs : s.sync <;> simp only [State.withTickPeriod_sync, hs, State.withTickPeriod_syncWaitHigh,
    State.withTickPeriod_syncWaitLow, State.withTickPeriod_passTick]
  case retry =>
    by_cases h : s.sl.fired
    · simp only [State.withTickPeriod_sl, h, if_true]
      exact State.withTickPeriod_startPass { s with sl := .stopped } n
    · simp [h]
  case prepos => by_cases h : s.sl.fired <;> simp [h]

@[simp] theorem State.withTickPeriod_armedTick : (s.withTickPeriod n).armedTick = s.armedTick.withTickPeriod n := by
  unfold State.armedTick
  by_cases he : s.fallingEdge <;> by_cases hc : s.cpo.fired <;> simp [he, hc]

@[simp] theorem State.withTickPeriod_sampleBit (k : Fin 24) :
    (s.withTickPeriod n).sampleBit k = (s.sampleBit k).withTickPeriod n := by
  unfold State.sampleBit
  by_cases h : k.val < 23 <;> simp [h] <;> rfl

@[simp] theorem State.withTickPeriod_capWaitHigh :
    (s.withTickPeriod n).capWaitHigh = s.capWaitHigh.withTickPeriod n := by
  unfold State.capWaitHigh
  by_cases h : s.clk <;> cases hs : s.cap <;> simp [h, hs] <;> rfl

@[simp] theorem State.withTickPeriod_capWaitLow :
    (s.withTickPeriod n).capWaitLow = s.capWaitLow.withTickPeriod n := by
  unfold State.capWaitLow
  by_cases h : s.clk <;> cases hs : s.cap <;> simp [h, hs]

@[simp] theorem State.withTickPeriod_captureTick :
    (s.withTickPeriod n).captureTick = s.captureTick.withTickPeriod n := by
  unfold State.captureTick
  cases hs : s.cap <;> simp [hs]
  case armed => by_cases h : s.fallingEdge <;> simp [h]
  case enter => rfl
  case settle => by_cases h : s.bw.fired <;> simp [h]

end Sys2Proof.Machine
end

