-- ==== Sys2Proof/Tests/Slice0.lean ====
section
/-! SUPPORT. The model's own tests. Expected values are the spec's (spec/95_test_vectors.md, the table of
spec/42_frame_decoder.md R196, the patterns of spec/opcode_table.json), or follow from the named rule by hand; each
machine test is one step or one operation on a small state. Then, for every statement with hypotheses, a state and
operands that meet them. -/

namespace Sys2Proof.Tests

open Sys2Proof.Machine

/-! ## Ill-formed terms are refused -/

theorem test_zero_poweroff_refused : ({ Params.p100us with tPowerOff := 0 } : Params).wf = false := by decide
theorem test_zero_align_refused : ({ Params.p100us with tAlign := 0 } : Params).wf = false := by decide
theorem test_zero_retry_refused : ({ Params.p100us with tRetry := 0 } : Params).wf = false := by decide
theorem test_zero_prepos_refused : ({ Params.p100us with tPrepos := 0 } : Params).wf = false := by decide
theorem test_zero_settle_refused : ({ Params.p100us with tSettle := 0 } : Params).wf = false := by decide
theorem test_zero_tick_refused : ({ Params.p100us with tTick := 0 } : Params).wf = false := by decide
theorem test_no_low_phase_refused : ({ Waveform.w100us with wLo := 0 } : Waveform).wf = false := by decide
theorem test_no_high_phase_refused : ({ Waveform.w100us with wHi := 0 } : Waveform).wf = false := by decide
/-- Cells of 2 ticks are too fast (V-H2). -/
theorem test_short_cell_refused : ({ Waveform.w100us with wLo := 1, wHi := 1 } : Waveform).wf = false := by decide
theorem test_no_hold_refused : ({ Waveform.w100us with hold := 0 } : Waveform).wf = false := by decide
theorem test_hold_beyond_gap_refused : ({ Waveform.w100us with hold := 1200 } : Waveform).wf = false := by decide
theorem test_script_out_of_order_refused :
    scriptWf 0 [(5, ⟨false, 1#2⟩), (5, ⟨false, 2#2⟩)] = false := by decide
theorem test_script_in_order_accepted :
    scriptWf 0 [(10, ⟨false, 1#2⟩), (1295, ⟨false, 2#2⟩)] = true := by decide
/-- The defaults and the spec's vector parameters are well formed, and a system with them works (R301). -/
theorem test_defaults_work : Params.pDefault.wf = true ∧ Waveform.wDefault.wf = true ∧
    workingSetup .pDefault .wDefault = true ∧ Params.p100us.wf = true ∧ Waveform.w100us.wf = true ∧
    workingSetup .p100us .w100us = true := by decide
/-- 500000 ticks are the source's 500 ms (R6, R7). -/
theorem test_default_poweroff_is_500_ms :
    microsecondsOf .pDefault Params.pDefault.tPowerOff = 500 * 1000 := by decide
/-- So are 5000 ticks of 100 µs (R7, R8). -/
theorem test_p100us_poweroff_is_500_ms : microsecondsOf .p100us Params.p100us.tPowerOff = 500 * 1000 := by decide

/-! ## Words of the spec's encodings -/

theorem test_decode_nop : decodeAt .cmdPort 0b00 = .ok .nop := rfl
theorem test_decode_findGap : decodeAt .cmdPort 0b01 = .ok .findGap := rfl
theorem test_decode_readValue : decodeAt .cmdPort 0b10 = .ok .readValue := rfl
theorem test_decode_reserved11 : decodeAt .cmdPort 0b11 = .ok .reserved11 := rfl
theorem test_decode_rst : decodeAt .rstPort 0b1 = .ok .rst := rfl
theorem test_decode_no_rst : decodeAt .rstPort 0b0 = .error .resetNotAsserted := rfl
theorem test_decode_isPowered : decodeAt .poweredPort 0b1 = .ok .isPowered := rfl
theorem test_decode_readClock : decodeAt .clockLine 0b1 = .ok .readClock := rfl
theorem test_decode_readData : decodeAt .dataLine 0b1 = .ok .readData := rfl
theorem test_decode_writeLine : decodeAt .lineDriver 0b10 = .ok (.writeLine true false) := rfl
theorem test_decode_waitHigh : decodeAt .highWait 0b1 = .ok .waitHigh := rfl
theorem test_decode_waitLow : decodeAt .lowWait 0b0 = .ok .waitLow := rfl
theorem test_decode_fallingEdge : decodeAt .edgeDetector 0b10 = .ok .fallingEdge := rfl
theorem test_decode_rising_edge_rejected : decodeAt .edgeDetector 0b01 = .error .notAFallingEdge := rfl
theorem test_decode_capture : decodeAt .sampler 0x12009C4 = .ok .capture := rfl
/-- `aaaaaaaaaaaaaaaanu` with `acc` = 0000100111000100 (2500), `n` = 1, `u` = 0. -/
theorem test_decode_decode : decodeAt .arithmetic 0b000010011100010010 = .ok (.decode 2500#16 true false) := rfl
/-- `mmmmmmmmmmmmmmmmxxxxxsxxu`, bit 0 first: 0010001110010000 (2500, LSB first), 00000, 1, 00, flag 1. -/
theorem test_decode_frame24 :
    decodeAt .serialLine (2 ^ 2 + 2 ^ 6 + 2 ^ 7 + 2 ^ 8 + 2 ^ 11 + 2 ^ 21 + 2 ^ 24) =
      .ok (.frame24 0x2009C4#24 true) := rfl
theorem test_decode_too_wide : decodeAt .cmdPort 0b100 = .error .tooWide := rfl

theorem test_encode_decode_word : encode (.decode 2500#16 true true) = ⟨.arithmetic, 0b000010011100010011⟩ := by decide
theorem test_encode_frame24 : encode (.frame24 0x0009C4#24 true) = ⟨.serialLine, 0x10009C4⟩ := by decide

/-! ## Helpers -/

/-- The next state, if there is one. -/
def nextOf (o : Host.Outcome State Fault Refusal) : Option State :=
  match o with
  | .next t => some t
  | .fault _ => none
  | .refused _ => none

/-- The reset state with the spec's short parameters, `P_100us` and `W(2, 2, 1200)`, a host that presents nothing and
undriven lines. -/
def base : State :=
  { State.reset with params := .p100us, wave := .w100us, host := .held .silent, lines := .held .undriven }

/-- A state with the given levels on the lines for one tick. -/
def onLines (s : State) (clk data : Level) : State := 
  { s with lines := Feed.listing [⟨⟨clk, data⟩, 1⟩] (.held .undriven) }

/-- A state with a command code on the port for one tick. -/
def onCmd (s : State) (cmd : CmdCode) : State := 
  { s with host := Feed.listing [⟨⟨false, cmd⟩, 1⟩] (.held .silent) }

/-- A host that presents `rst = 1` with a code in this tick. -/
def withReset (cmd : CmdCode) : Feed HostIn := Feed.listing [⟨⟨true, cmd⟩, 1⟩] (.held .silent)

/-- A search in `sync`, with both timers of a pass running. -/
def searching (sync : SyncReg) (po al : Nat) : State :=
  { base with sync := sync, po := .running po, al := .running al }

/-- A capture in `cap`, with bits sampled so far. -/
def capturing (cap : CapReg) (raw : RawFrame) (acc : Half) : State :=
  { base with cap := cap, raw := raw, acc := acc, power := .on }

/-! ## FIND_GAP -/

/-- V-S2: the state after the acceptance of FIND_GAP. -/
theorem test_findGap_accepted :
    (nextOf (step (onCmd base 1#2))).map (fun t => (t.sync, t.po, t.al, t.busy)) =
      some (.passHi 0, .running 5000, .running 300, true) := by decide
/-- V-S7: both timers fire at the same tick: the power-off timer wins. -/
theorem test_findGap_poweroff_before_misalignment :
    (nextOf (step (searching (.passLo 5) 1 1))).map (fun t => (t.sync, t.power, t.syncResult, t.sl)) =
      some (.idle, .off, .powerOff, .stopped) := by decide
/-- V-S8 (a): the alignment timer fires at the tick the awaited level arrives: misaligned. -/
theorem test_findGap_timer_before_level :
    (nextOf (step (onLines (searching .final 4901 1) true false))).map (fun t => (t.sync, t.po, t.sl)) =
      some (.retry, .running 4900, .running 200) := by decide
/-- V-S8 (b): one tick earlier the pass succeeds. -/
theorem test_findGap_success :
    (nextOf (step (onLines (searching .final 4901 2) true false))).map (fun t => (t.sync, t.power, t.po, t.sl)) =
      some (.prepos, .on, .stopped, .running 1100) := by decide
/-- V-S6: a power-off timer that fired in the retry sleep is acted on at its end. -/
theorem test_findGap_latched_poweroff :
    (nextOf (step { base with sync := .retry, po := .running 0, sl := .running 1 })).map
      (fun t => (t.sync, t.syncResult, t.po)) = some (.idle, .powerOff, .stopped) := by decide
/-- Cell 23 leads to the final wait (R136). -/
theorem test_findGap_last_cell :
    (nextOf (step (onLines (searching (.passLo 23) 9 9) false false))).map (fun t => t.sync) = some .final := by decide

/-! ## READ_VALUE, CAPTURE, DECODE -/

/-- V-D1: the state after the acceptance of READ_VALUE. -/
theorem test_readValue_accepted :
    (nextOf (step (onCmd { base with valValid := true } 2#2))).map
      (fun t => (t.cap, t.cpo, t.valValid, t.irqEn)) = some (.armed, .running 5000, false, true) := by decide
/-- V-C2 (a): an edge at the tick `cpo` fires wins. -/
theorem test_readValue_edge_before_timeout :
    (nextOf (step (onLines { base with cap := .armed, clkPrev := true, cpo := .running 1 } false true))).map
      (fun t => (t.cap, t.power, t.cpo, t.raw, t.acc)) =
      some (.enter 1, .on, .stopped, 1#24, 1#16) := by decide
/-- V-C1: without an edge the timeout turns `power` off and the block stays armed. -/
theorem test_readValue_timeout_stays_armed :
    (nextOf (step { base with cap := .armed, power := .on, cpo := .running 1 })).map
      (fun t => (t.cap, t.power, t.cpo, t.busy)) = some (.armed, .off, .stopped, true) := by decide
/-- V-L4: a line already low when armed is no edge. -/
theorem test_readValue_low_line_is_no_edge :
    (nextOf (step (onLines { base with cap := .armed, cpo := .running 9 } false true))).map (fun t => t.cap) =
      some .armed := by decide
/-- V-D1: bit 2 of 2500 is 1: `raw` and `acc` become 4. -/
theorem test_capture_sample_bit_2 :
    (nextOf (step (onLines (capturing (.waitLo 2) 0#24 0#16) false true))).map (fun t => (t.cap, t.raw, t.acc)) =
      some (.enter 3, 4#24, 4#16) := by decide
/-- V-D2: bit 21 goes to `raw` only. -/
theorem test_capture_sample_sign :
    (nextOf (step (onLines (capturing (.waitLo 21) 0x0009C4#24 2500#16) false true))).map
      (fun t => (t.cap, t.raw, t.acc)) = some (.enter 22, 0x2009C4#24, 2500#16) := by decide
/-- V-D1: after bit 23 the settle delay is armed. -/
theorem test_capture_last_bit :
    (nextOf (step (onLines (capturing (.waitLo 23) 0x0009C4#24 2500#16) false false))).map
      (fun t => (t.cap, t.raw, t.bw)) = some (.settle, 0x0009C4#24, .running 3) := by decide
/-- V-D2: the completion step of −0.625 inch. -/
theorem test_capture_completion :
    (nextOf (step (onLines { capturing .settle 0x2009C4#24 2500#16 with bw := .running 1 } true true))).map
      (fun t => (t.cap, t.mag, t.std, t.valValid, t.bw)) = some (.idle, 0xFD8F#16, .inch, true, .stopped) := by decide
/-- The Millimeter rows of the table of R196. -/
theorem test_decode_table_mm :
    [(0, false), (1, false), (1, true), (2, false), (3, true), (2500, false), (2500, true), (65535, false),
      (65535, true)].map (fun p => decodeMagnitude (BitVec.ofNat 16 p.1) p.2 false) =
    [0x0000#16, 0x0000#16, 0x0000#16, 0x0001#16, 0xFFFF#16, 0x04E2#16, 0xFB1E#16, 0x7FFF#16, 0x8001#16] := by decide
/-- The Inch rows of the table of R196. -/
theorem test_decode_table_inch :
    [(3, false), (7, true), (2500, false), (2500, true), (65535, false), (65535, true)].map
      (fun p => decodeMagnitude (BitVec.ofNat 16 p.1) p.2 true) =
    [0x0000#16, 0xFFFF#16, 0x0271#16, 0xFD8F#16, 0x3FFF#16, 0xC001#16] := by decide

/-! ## The line reader, the ports, reset, the frame -/

theorem test_readClock_high :
    (nextOf (exec .readClock (onLines base true false))).map (fun t => t.returned) = some (.level true) := by decide
theorem test_readData_low :
    (nextOf (exec .readData (onLines base true false))).map (fun t => t.returned) = some (.level false) := by decide
theorem test_writeLine_changes_nothing : nextOf (exec (.writeLine true true) base) = some base := by decide
/-- V-L2: a wait that finds its level ends at its first tick. -/
theorem test_waitHigh_ends_at_once :
    (nextOf (exec .waitHigh (onLines (searching (.passHi 1) 9 9) true false))).map (fun t => t.sync) =
      some (.passLo 1) := by decide
/-- V-L3: a low level ends the WAIT_LOW and the cell. -/
theorem test_waitLow_completes_the_cell :
    (nextOf (exec .waitLow (onLines (searching (.passLo 1) 9 9) false false))).map (fun t => t.sync) =
      some (.passHi 2) := by decide
theorem test_fallingEdge_seen :
    (nextOf (exec .fallingEdge (onLines { base with clkPrev := true } false false))).map
      (fun t => (t.returned, t.clkPrev)) = some (.edge true, false) := by decide
theorem test_isPowered_after_reset :
    (nextOf (exec .isPowered State.reset)).map (fun t => t.returned) = some (.powered false) := by decide
/-- V-C4: the reserved code changes nothing but `clk_prev`. -/
theorem test_reserved11_ignored :
    nextOf (step { onCmd (onLines base true true) 3#2 with params := .p100us }) =
      some { base with clkPrev := true } := by decide
theorem test_nop_changes_only_clkPrev :
    nextOf (step (onLines base true true)) = some { base with clkPrev := true } := by decide
/-- V-R1: reset in mid-capture, with `cmd` at `01`. -/
theorem test_rst_in_mid_capture :
    nextOf (step { onLines (capturing (.waitHi 7) 9#24 9#16) true true with
      clkPrev := true, host := withReset 1#2 }) = some base := by decide
/-- V-S2, R296: with `W(2, 2, 1200)` the frame on the lines lasts 1190 + 94 + 10 ticks. -/
theorem test_frame24_duration :
    (nextOf (exec (.frame24 0x0009C4#24 false) base)).map (fun t => (t.lines.runs.map Run.ticks).sum) =
      some (1190 + 94 + 10) := by decide
/-- The frame written out in spec/95_test_vectors.md, section 1: its first cells are 0, 0, 1. -/
theorem test_frame24_first_cells :
    (nextOf (exec (.frame24 0x0009C4#24 false) base)).map (fun t => t.lines.runs.take 6) =
      some [⟨⟨true, false⟩, 1190⟩, ⟨⟨false, false⟩, 2⟩, ⟨⟨true, false⟩, 2⟩, ⟨⟨false, false⟩, 2⟩,
        ⟨⟨true, true⟩, 2⟩, ⟨⟨false, true⟩, 2⟩] := by decide
/-- R34: the retry sleep is Misaligned, a pass Aligned and Active. -/
theorem test_syncState_predicates :
    (searching .retry 5 5).misaligned = true ∧ (searching (.passHi 0) 5 5).alignedSoFar = true ∧
      (searching (.passHi 0) 5 5).searchActive = true ∧ (searching .retry 0 5).timedOut = true := by decide

/-! ## Witnesses: states that satisfy the invariant -/

/-- The invariant as a check. -/
def invCheck (s : State) : Bool :=
  s.params.wf && (s.sync == .idle || s.cap == .idle) &&
  (!(s.sync.inPass || s.sync == .retry) || s.po.runsAtMost s.params.tPowerOff) &&
  (s.sync.inPass || s.sync == .retry || s.po == .stopped) &&
  (if s.sync.inPass then s.al.runsAtMost s.params.tAlign else s.al == .stopped) &&
  (!(s.sync == .retry) || s.sl.runsAtMost s.params.tRetry) &&
  (!(s.sync == .prepos) || s.sl.runsAtMost s.params.tPrepos) &&
  (s.sync == .retry || s.sync == .prepos || s.sl == .stopped) &&
  s.cpo.atMost s.params.tPowerOff && (s.cap == .armed || s.cpo == .stopped) &&
  (!(s.cap == .settle) || s.bw.runsAtMost s.params.tSettle) && (s.cap == .settle || s.bw == .stopped) &&
  (s.acc == frameCount s.raw) &&
  (match s.cap.waitingFor with
    | none => true
    | some k => decide (1 ≤ k) && decide (s.raw.toNat < 2 ^ k) && s.power == .on) &&
  (!(s.sync == .prepos) || s.power == .on) && (s.mag != 0x8000#16)

/-- A state that passes the check satisfies the invariant. -/
theorem inv_of_check (s : State) (h : invCheck s = true) : Inv s := by
  simp only [invCheck, Bool.and_eq_true, Bool.or_eq_true, Bool.not_eq_true', beq_iff_eq, bne_iff_ne,
    Bool.or_eq_false_iff, beq_eq_false_iff_ne] at h
  obtain ⟨⟨⟨⟨⟨⟨⟨⟨⟨⟨⟨⟨⟨⟨⟨h1, h2⟩, h3⟩, h4⟩, h5⟩, h6⟩, h7⟩, h8⟩, h9⟩, h10⟩, h11⟩, h12⟩, h13⟩, h14⟩, h15⟩, h16⟩ := h
  constructor
  case params => exact h1
  case oneOperation => exact h2
  case poSearch => rintro (h | h) <;> simp_all
  case poElse => intro ha hb; simp_all
  case alPass => intro h; simp_all
  case alElse => intro h; simp_all
  case slRetry => intro h; simp_all
  case slPrepos => intro h; simp_all
  case slElse => intro ha hb; simp_all
  case cpoArmed => exact h9
  case cpoElse => intro h; simp_all
  case bwSettle => intro h; simp_all
  case bwElse => intro h; simp_all
  case accRaw => exact h13
  case capIndex => intro k hk; simp_all
  case rawFresh => intro k hk; simp_all
  case preposOn => intro h; simp_all
  case captureOn =>
    intro h
    cases hk : s.cap.waitingFor with
    | none => exact absurd hk h
    | some k => simp_all
  case magRange => exact h16

/-- An idle block that has been idle before, with a host and a caliper. -/
def idle1 : State := { base with clkPrev := true, power := .on }

theorem witness_inv_idle : Inv idle1 := inv_of_check _ (by decide)
theorem witness_inv_pass : Inv (searching (.passHi 3) 4000 200) := inv_of_check _ (by decide)
theorem witness_inv_pass_last_tick : Inv (searching (.passLo 23) 1 1) := inv_of_check _ (by decide)
theorem witness_inv_retry : Inv { base with sync := .retry, po := .running 0, sl := .running 1 } :=
  inv_of_check _ (by decide)
theorem witness_inv_prepos : Inv { base with sync := .prepos, sl := .running 0, power := .on } :=
  inv_of_check _ (by decide)
theorem witness_inv_armed : Inv { base with cap := .armed, cpo := .running 5000 } := inv_of_check _ (by decide)
theorem witness_inv_wait : Inv (capturing (.waitHi 3) 4#24 4#16) := inv_of_check _ (by decide)
theorem witness_inv_settle : Inv { capturing .settle 0x2009C4#24 2500#16 with bw := .running 1 } :=
  inv_of_check _ (by decide)

/-- A small system for the whole-frame statements: cells of three ticks, a short gap. -/
def small : State :=
  { State.reset with
    params := { tPowerOff := 400, tAlign := 90, tRetry := 80, tPrepos := 60, tSettle := 2, tTick := 1 }
    wave := { wLo := 1, wHi := 2, wGap := 100, hold := 4 }
    host := .held .silent, lines := .held .undriven }

/-- A host that lists no reset, and then presents nothing, presents none. -/
theorem noReset_of_runs (s : State) (runs : List (Run HostIn)) (h : ∀ r ∈ runs, r.val.rst = false)
    (e : s.host = Feed.listing runs (.held .silent)) : s.noReset := by
  intro n
  rw [State.hostAt, e]
  exact Feed.nth_all _ (fun v : HostIn => v.rst = false) _ _ n _ _ (by simpa [Feed.held] using h) (by simp [Feed.held])
    rfl (by simp)

/-- The host presents nothing. -/
theorem noReset_of_silent (s : State) (h : s.host = .held .silent) : s.noReset :=
  noReset_of_runs s [] (by simp) h

/-! ## Reset and the tick -/

theorem witness_ResetTickGivesTheResetState :
    ({ searching .final 5 5 with host := withReset 1#2 } : State).hostNow.rst = true := by decide

theorem witness_IdleOrResetTickRunsTheHostsWord :
    (onCmd idle1 2#2).busy = false ∧
      ({ searching .final 5 5 with host := withReset 1#2 } : State).hostNow.rst = true := by decide

theorem witness_BusyTickRunsTheOperationInProgress :
    ((searching .final 5 5).hostNow.rst = false ∧ (searching .final 5 5).busy = true ∧
      (searching .final 5 5).sync ≠ .idle) ∧
    (({ base with cap := .armed } : State).busy = true ∧ ({ base with cap := .armed } : State).sync = .idle) ∧
    ((capturing .settle 0#24 0#16).busy = true ∧ (capturing .settle 0#24 0#16).cap ≠ .armed) := by decide

theorem witness_BusyBlockIgnoresTheCommand :
    (searching .retry 5 5).busy = true ∧ (searching .retry 5 5).hostNow.rst = false := by decide

theorem witness_NopAndReservedCodeChangeOnlyClkPrev :
    Inv idle1 ∧ idle1.busy = false ∧ idle1.hostNow.rst = false ∧ idle1.hostNow.cmd = 0#2 ∧
      Inv (onCmd idle1 3#2) ∧ (onCmd idle1 3#2).busy = false ∧ (onCmd idle1 3#2).hostNow.rst = false ∧
      (onCmd idle1 3#2).hostNow.cmd = 3#2 :=
  ⟨witness_inv_idle, by decide, by decide, by decide, inv_of_check _ (by decide), by decide, by decide, by decide⟩

theorem witness_ClkPrevFollowsTheClock :
    idle1.hostNow.rst = false ∧ ∃ t, step idle1 = .next t := ⟨by decide, _, rfl⟩

theorem witness_ParametersNeverChange :
    (∃ t, step idle1 = .next t) ∧ ∃ t, exec .rst idle1 = .next t := ⟨⟨_, rfl⟩, _, rfl⟩

theorem witness_NoRuleReadsTheTickPeriod :
    (∃ t, exec .findGap idle1 = .next t) ∧ (∃ t, step idle1 = .next t) ∧
      (idle1.withTickPeriod 7).params.tTick ≠ idle1.params.tTick := ⟨⟨_, rfl⟩, ⟨_, rfl⟩, by decide⟩

theorem witness_EveryStepKeepsTheInvariant :
    Inv (searching (.passLo 23) 1 1) ∧ ∃ t, step (searching (.passLo 23) 1 1) = .next t :=
  ⟨witness_inv_pass_last_tick, _, rfl⟩

/-! ## FIND_GAP -/

theorem witness_FindGapIsAccepted : idle1.busy = false ∧ 1 ≤ idle1.params.tPowerOff := by decide

theorem witness_PowerOffTimerEndsTheSearch :
    ((searching .final 0 0).po.fired = true ∧ (searching .final 0 0).sync.inPass = true) ∧
    (({ base with sync := .retry, po := .running 0, sl := .running 0 } : State).po.fired = true ∧
      ({ base with sync := .retry, po := .running 0, sl := .running 0 } : State).sl.fired = true) := by decide

theorem witness_AlignmentTimerMakesThePassMisaligned :
    (searching (.passHi 0) 1 0).sync.inPass = true ∧ (searching (.passHi 0) 1 0).po.fired = false ∧
      (searching (.passHi 0) 1 0).al.fired = true := by decide

theorem witness_PassCountsCellsByTheClockLevel :
    (searching (.passHi 0) 1 1).po.fired = false ∧ (searching (.passHi 0) 1 1).al.fired = false ∧
      (searching (.passHi 0) 1 1).sync = .passHi 0 ∧ (searching (.passLo 23) 1 1).sync = .passLo 23 ∧
      (searching (.passLo 23) 1 1).po.fired = false ∧ (searching (.passLo 23) 1 1).al.fired = false := by decide

theorem witness_FinalWaitEndsInAlignmentSuccess :
    (searching .final 1 1).sync = .final ∧ (searching .final 1 1).po.fired = false ∧
      (searching .final 1 1).al.fired = false ∧ (onLines (searching .final 1 1) true false).clk = true := by decide

/-- A retry sleep with the given timers. -/
def retrying (po sl : Nat) : State := { base with sync := .retry, po := .running po, sl := .running sl }

theorem witness_TopOfSearchingTestsThePowerOffTimer :
    ((retrying 0 1).sync = .retry ∧ (retrying 0 1).sl.fired = false) ∧
    ((retrying 0 0).sl.fired = true ∧ (retrying 0 0).po.fired = true) ∧
    ((retrying 1 0).sl.fired = true ∧ (retrying 1 0).po.fired = false) := by decide

theorem witness_PrePositioningSleepEndsAligned :
    (({ base with sync := .prepos, sl := .running 1 } : State).sync = .prepos ∧
      ({ base with sync := .prepos, sl := .running 1 } : State).sl.fired = false) ∧
    Inv { base with sync := .prepos, sl := .running 0, power := .on } ∧
      ({ base with sync := .prepos, sl := .running 0, power := .on } : State).sl.fired = true :=
  ⟨by decide, witness_inv_prepos, by decide⟩

theorem witness_FindGapLeavesTheCaptureSide :
    (∃ t, exec .findGap idle1 = .next t) ∧ (∃ t, exec .findGap (capturing (.enter 1) 1#24 1#16) = .next t) ∧
      (capturing (.enter 1) 1#24 1#16).sync = .idle ∧ (capturing (.enter 1) 1#24 1#16).cap ≠ .idle :=
  ⟨⟨_, rfl⟩, ⟨_, rfl⟩, by decide, by decide⟩

theorem witness_EverySearchEndsInTime :
    Inv (onCmd idle1 1#2) ∧ (onCmd idle1 1#2).noReset ∧ (onCmd idle1 1#2).busy = false ∧
      (onCmd idle1 1#2).hostNow.cmd = 1#2 := by
  exact ⟨inv_of_check _ (by decide), noReset_of_runs _ _ (by decide) rfl, by decide, by decide⟩

/-- Cells of two ticks, too fast for the sampler, are enough for the search (R297). -/
theorem witness_SearchAlignsOnOneWholeFrame :
    let w : Waveform := { wLo := 1, wHi := 1, wGap := 6, hold := 4 }
    let s := onCmd { small with wave := w,
                                lines := Feed.listing (frameRuns w 2 0x0009C4#24 true) (.chosen 7) } 1#2
    Inv s ∧ s.noReset ∧ s.busy = false ∧ s.hostNow.cmd = 1#2 ∧ 1 ≤ s.wave.wLo ∧ 1 ≤ s.wave.wHi ∧
      1 ≤ s.wave.flagHold s.params.tSettle ∧
      s.lines = Feed.listing (frameRuns s.wave s.params.tSettle 0x0009C4#24 true) (.chosen 7) ∧
      2 ≤ s.wave.lead s.params.tSettle ∧
      s.wave.lead s.params.tSettle + s.wave.frameTicks + 1 ≤ s.params.tAlign ∧
      s.wave.lead s.params.tSettle + s.wave.frameTicks < s.params.tPowerOff := by
  exact ⟨inv_of_check _ (by decide), noReset_of_runs _ _ (by decide) rfl, by decide, by decide, by decide, by decide,
    by decide, rfl, by decide, by decide, by decide⟩

/-! ## READ_VALUE and CAPTURE -/

theorem witness_ReadValueArmsTheTrigger : idle1.busy = false := by decide

/-- An armed block with the given previous clock level and timer. -/
def armed (prev : Level) (cpo : Nat) : State :=
  { base with cap := .armed, clkPrev := prev, cpo := .running cpo }

theorem witness_ArmedTriggerPrefersTheEdge :
    (armed true 0).sync = .idle ∧ (armed true 0).cap = .armed ∧ (armed true 0).fallingEdge = true ∧
      (armed false 0).fallingEdge = false ∧ (armed false 0).cpo.fired = true ∧
      (armed false 1).fallingEdge = false ∧ (armed false 1).cpo.fired = false := by decide

theorem witness_CaptureWaitsThenSamples :
    (capturing (.enter 1) 1#24 1#16).sync = .idle ∧ (capturing (.enter 1) 1#24 1#16).cap = .enter 1 ∧
      (capturing (.waitHi 23) 1#24 1#16).cap = .waitHi 23 ∧ (capturing (.waitLo 1) 1#24 1#16).cap = .waitLo 1 ∧
      (onLines (capturing (.waitLo 1) 1#24 1#16) true true).clk = true ∧
      (onLines (capturing (.waitLo 23) 1#24 1#16) false true).clk = false := by decide

theorem witness_SampleStoresItsBitOnly :
    (∀ k ∈ [15, 16, 23], (capturing (.waitLo k) 1#24 1#16).sync = .idle ∧
      (capturing (.waitLo k) 1#24 1#16).cap = .waitLo k ∧
      (onLines (capturing (.waitLo k) 1#24 1#16) false true).clk = false) ∧
    (capturing (.waitLo 15) 1#24 1#16).acc.getLsbD 15 = false := by decide

theorem witness_CompletionWritesTheMeasurement :
    (∀ n ∈ [0, 1], ({ capturing .settle 1#24 1#16 with bw := .running n } : State).sync = .idle ∧
      ({ capturing .settle 1#24 1#16 with bw := .running n } : State).cap = .settle ∧
      ({ capturing .settle 1#24 1#16 with bw := .running n } : State).bw.fired = decide (n = 0)) := by decide

theorem witness_ReadValueGoesOnWithItsCapture :
    ((capturing .settle 1#24 1#16).sync = .idle ∧ (capturing .settle 1#24 1#16).cap ≠ .idle ∧
      (capturing .settle 1#24 1#16).cap ≠ .armed) ∧ (searching .final 1 1).sync ≠ .idle ∧
    (idle1.sync = .idle ∧ idle1.cap = .idle) ∧
    ((armed false 1).cap = .armed ∧ (armed false 1).fallingEdge = false) ∧
    ((armed true 1).cap = .armed ∧ (armed true 1).fallingEdge = true) := by decide

theorem witness_ReadingLeavesTheSearchSide :
    (∃ t, exec .readValue (capturing (.waitLo 1) 1#24 1#16) = .next t) ∧
      (∃ t, exec .capture (onLines (capturing (.waitLo 1) 1#24 1#16) true true) = .next t) ∧
      (capturing (.waitLo 1) 1#24 1#16).busy = true ∧
      (∀ k, (capturing (.waitLo 1) 1#24 1#16).cap = .waitLo k →
        (onLines (capturing (.waitLo 1) 1#24 1#16) true true).clk = true) :=
  ⟨⟨_, rfl⟩, ⟨_, rfl⟩, by decide, fun _ _ => by decide⟩

/-- The shortest cell: three ticks. -/
def shortCell (bit : Level) : Cell := { lowData := [], highFirst := true, highData := [false], bit := bit }

theorem witness_ArmedBlockDecodesTheFrameOnTheWire :
    let cells := List.replicate 23 (shortCell true)
    let s : State := { small with
      cap := .armed, clkPrev := true,
      lines := Feed.listing (⟨⟨false, true⟩, 1⟩ :: (cells.flatMap Cell.ticks ++
        [⟨true, false⟩].map (fun l => ⟨l, 1⟩) ++ [⟨⟨true, true⟩, 1⟩])) (.chosen 7) }
    s.sync = .idle ∧ s.cap = .armed ∧ s.clkPrev = true ∧ s.noReset ∧ cells.length = 23 ∧
      (∀ c ∈ cells, 3 ≤ c.length) ∧ [(⟨true, false⟩ : LineIn)].length + 1 = s.params.tSettle :=
  ⟨rfl, rfl, rfl, noReset_of_silent _ rfl, by decide, by decide, rfl⟩

theorem witness_TransmittedFrameIsDecoded :
    let s : State := { small with cap := .armed }
    s.sync = .idle ∧ s.cap = .armed ∧ s.noReset ∧ s.wave.wf = true ∧ 1 ≤ s.params.tSettle ∧
      s.lines.runs = [] ∧ ticksOf s.lines.pending ≤ 0 ∧
      1 ≤ s.wave.lead s.params.tSettle ∧ ({ s with clkPrev := true } : State).clkPrev = true ∧
      ∃ u, exec (.frame24 0x2009C4#24 true) s = .next u :=
  ⟨rfl, rfl, noReset_of_silent _ rfl, by decide, by decide, rfl, by decide, by decide, rfl, _, rfl⟩

theorem witness_ReadingReturnsTheTransmittedMeasurement :
    let s : State := { small with
      lines := Feed.listing (⟨.silence, 2⟩ :: (burstRuns small.wave small.params.tSettle 0x0009C4#24 true ++
        frameRuns small.wave small.params.tSettle 0x2009C4#24 false)) (.chosen 7)
      host := hostScript [(0, ⟨false, 1#2⟩), (2 + small.wave.frameTicks + small.params.tPrepos + 1 + 38, ⟨false, 2#2⟩)] }
    Inv s ∧ s.busy = false ∧ s.wave.wf = true ∧ workingSetup s.params s.wave = true ∧
      2 + s.wave.frameTicks + 1 ≤ s.params.tAlign ∧ 2 + s.wave.frameTicks < s.params.tPowerOff ∧
      38 ≤ hostMargin s.params s.wave :=
  ⟨inv_of_check _ (by decide), by decide, by decide, by decide, by decide, by decide, by decide⟩

theorem witness_ArmedBlockWaitsWithoutTimeout :
    (armed false 2).sync = .idle ∧ (armed false 2).cap = .armed ∧ (armed false 2).noReset ∧
      (0 < 2 → (armed false 2).fallingEdge = false) ∧
      (∀ j, j + 1 < 2 → ¬(((armed false 2).linesAt j).clk = true ∧ ((armed false 2).linesAt (j + 1)).clk = false)) ∧
      (armed false 2).cpo = .running 2 ∧ (armed false 3).cpo = .running 3 := by
  refine ⟨rfl, rfl, noReset_of_silent _ rfl, fun _ => by decide, ?_, rfl, rfl⟩
  intro j hj
  obtain rfl : j = 0 := by omega
  decide

theorem witness_CaptureWaitsWithoutTimeout :
    (Inv (capturing (.waitHi 3) 4#24 4#16) ∧ (capturing (.waitHi 3) 4#24 4#16).noReset ∧
      ∀ j, j < 1 → ((capturing (.waitHi 3) 4#24 4#16).linesAt j).clk = false) ∧
    (Inv (onLines (capturing (.waitLo 3) 4#24 4#16) true true) ∧
      (onLines (capturing (.waitLo 3) 4#24 4#16) true true).noReset ∧
      ∀ j, j < 1 → ((onLines (capturing (.waitLo 3) 4#24 4#16) true true).linesAt j).clk = true) := by
  refine ⟨⟨witness_inv_wait, noReset_of_silent _ rfl, ?_⟩, inv_of_check _ (by decide), noReset_of_silent _ rfl, ?_⟩ <;>
  · intro j hj
    obtain rfl : j = 0 := by omega
    decide

theorem witness_EdgeAtAcceptanceIsNotTaken :
    (onCmd idle1 2#2).busy = false ∧ (onCmd idle1 2#2).hostNow.rst = false ∧ (onCmd idle1 2#2).hostNow.cmd = 2#2 ∧
      (onCmd idle1 2#2).fallingEdge = true := by decide

theorem witness_CritIsLowForOneTickBetweenBits :
    ∀ k ∈ [22, 23], ∃ t, Inv (capturing (.waitLo k) 4#24 4#16) ∧
      (capturing (.waitLo k) 4#24 4#16).hostNow.rst = false ∧ (capturing (.waitLo k) 4#24 4#16).crit = true ∧
      step (capturing (.waitLo k) 4#24 4#16) = .next t ∧ t.crit = false := by
  intro k hk
  rcases List.mem_cons.mp hk with rfl | hk
  · exact ⟨_, inv_of_check _ (by decide), by decide, by decide, rfl, by decide⟩
  · obtain rfl : k = 23 := by simpa using hk
    exact ⟨_, inv_of_check _ (by decide), by decide, by decide, rfl, by decide⟩

/-! ## DECODE, the line reader, FRAME24 -/

theorem witness_DecodeStaysInRange :
    (1#16).toNat < (if false then 4 else 2) ∧ (3#16).toNat < (if true then 4 else 2) := by decide

theorem witness_IsPoweredReadsPowerAtAnyTick : idle1.power = .on ∧ State.reset.power = .off := by decide

theorem witness_LevelWaitsEndAtTheAwaitedLevel :
    (onLines (searching (.passHi 0) 1 1) false true).clk = false ∧
    (onLines (searching (.passHi 0) 1 1) true true).clk = true ∧ (searching (.passHi 0) 1 1).sync = .passHi 0 ∧
    (searching .final 1 1).sync = .final ∧
    ((capturing (.waitHi 1) 1#24 1#16).sync = .idle ∧ (capturing (.waitHi 1) 1#24 1#16).cap = .waitHi 1) ∧
    ((∀ k, idle1.sync ≠ .passHi k) ∧ idle1.sync ≠ .final ∧ ¬(idle1.sync = .idle ∧ ∃ k, idle1.cap = .waitHi k)) ∧
    ((searching (.passLo 22) 1 1).sync = .passLo 22 ∧ (searching (.passLo 23) 1 1).sync = .passLo 23) ∧
    ((capturing (.waitLo 23) 1#24 1#16).sync = .idle ∧ (capturing (.waitLo 23) 1#24 1#16).cap = .waitLo 23) ∧
    ((∀ k, idle1.sync ≠ .passLo k) ∧ ¬(idle1.sync = .idle ∧ ∃ k, idle1.cap = .waitLo k)) := by decide

theorem witness_WaitsAreTheTransitionsOfTheirStates :
    (∀ r ∈ [SyncReg.passHi 5, .passLo 5, .final],
      (searching r 1 1).po.fired = false ∧ (searching r 1 1).al.fired = false ∧ (searching r 1 1).sync = r) ∧
    (∀ c ∈ [CapReg.waitHi 1, .waitLo 23], (capturing c 1#24 1#16).sync = .idle ∧ (capturing c 1#24 1#16).cap = c) := by
  decide

theorem witness_FrameOnTheLinesIsTheReferenceWaveform :
    let w := Waveform.w100us
    1 ≤ w.wLo ∧ 1 ≤ w.wHi ∧ 1 ≤ 3 ∧ (Feed.held LineIn.undriven).pending = [] ∧ 1189 < w.lead 3 ∧ 9 < w.flagHold 3 ∧
      w.lead 3 + w.frameTicks ≤ 1284 := by decide

/-- `W(1, 2, 9)` with T_SETTLE 11: the flag of a frame falls in the next one. -/
def lateWave : Waveform := { wLo := 1, wHi := 2, wGap := 9, hold := 1 }

theorem witness_SuccessiveFramesAreTheReferenceWaveform :
    1 ≤ lateWave.wLo ∧ 1 ≤ lateWave.wHi ∧ 1 ≤ lateWave.wGap ∧ 1 ≤ 11 ∧ (Feed.held LineIn.undriven).pending = [] ∧
      0 < [((0 : RawFrame), true), (0, false)].length ∧ lateWave.lead 11 + lateWave.frameTicks ≤ 70 ∧
      (∀ i' < 2, ∀ k < 24, 23 * 3 + 11 ≠ lateWave.lead 11 + i' * (lateWave.frameTicks + lateWave.wGap) + k * 3) := by
  decide

/-- R296: with `W(1, 2, 9)` and T_SETTLE 11 the second frame begins 9 ticks after the return to high, at `F_23 + 10`
(`F_23` is tick 69), and the flag of the first is on the data line one tick later, in the second frame. -/
theorem test_late_flag_in_the_next_frame :
    let sent := ((Feed.held LineIn.undriven).sending lateWave 11 0 true).sending lateWave 11 0 false
    ticksOf (sent.runs.take 50) = 69 + 10 ∧
      [0, 1, 2, 3].map (fun n => Feed.nth LineIn.choice n { sent with runs := sent.runs.drop 50 }) =
        [⟨false, false⟩, ⟨true, true⟩, ⟨true, false⟩, ⟨false, false⟩] := by decide

/-- The flag in the low phase of the last cell, and after the generator's hold (R296: at `F_23 + T_SETTLE`). -/
theorem test_flag_slot_anywhere :
    (burstRuns { wLo := 5, wHi := 1, wGap := 9, hold := 1 } 2 0 true).drop 46 =
      [⟨⟨false, false⟩, 2⟩, ⟨⟨false, true⟩, 3⟩, ⟨⟨true, true⟩, 1⟩] ∧
    (burstRuns { wLo := 1, wHi := 2, wGap := 9, hold := 1 } 6 0 true).drop 46 =
      [⟨⟨false, false⟩, 1⟩, ⟨⟨false, true⟩, 0⟩, ⟨⟨true, true⟩, 6⟩] := by decide

/-- A clock that is high for ever is a feed (V-C1, V-S1), and so is any choice of the caliper (R5). -/
theorem test_clock_high_for_ever (n : Nat) :
    ({ base with lines := .held .silence } : State).linesAt n = ⟨true, false⟩ := by
  simp [State.linesAt, LineIn.silence]

theorem test_reset_lines_are_free (n : Nat) :
    (State.reset.linesAt n).clk = Config.freeClock 0 n ∧ (State.reset.linesAt n).data = Config.freeData 0 n := by
  have h : State.reset.linesAt n = LineIn.choice 0 (0 + n) := Feed.nth_free _ _ _ _
  simp [h, LineIn.choice]

/-! ## The registers' writers, and what a step reads -/

theorem witness_PowerHasFiveWritersAndNoReader :
    (Inv { idle1 with host := withReset 0#2 } ∧
      ({ idle1 with host := withReset 0#2 } : State).hostNow.rst = true) ∧
    (Inv (searching (.passLo 23) 1 1) ∧ (searching (.passLo 23) 1 1).countdown.po.fired = true) ∧
    (Inv (retrying 0 1) ∧ (retrying 0 1).countdown.sl.fired = true ∧ (retrying 0 1).countdown.po.fired = true) ∧
    (Inv (onLines (searching .final 2 2) true true) ∧ (onLines (searching .final 2 2) true true).clk = true ∧
      (searching .final 2 2).countdown.po.fired = false ∧ (searching .final 2 2).countdown.al.fired = false) ∧
    (Inv (armed true 1) ∧ (armed true 1).fallingEdge = true) ∧
    (Inv (armed false 1) ∧ (armed false 1).fallingEdge = false ∧ (armed false 1).countdown.cpo.fired = true) ∧
    Inv idle1 ∧ ∃ t, step idle1 = .next t :=
  ⟨⟨inv_of_check _ (by decide), by decide⟩, ⟨witness_inv_pass_last_tick, by decide⟩,
    ⟨inv_of_check _ (by decide), by decide, by decide⟩,
    ⟨inv_of_check _ (by decide), by decide, by decide, by decide⟩, ⟨inv_of_check _ (by decide), by decide⟩,
    ⟨inv_of_check _ (by decide), by decide, by decide⟩, witness_inv_idle, _, rfl⟩

theorem witness_MeasurementIsWrittenByCompletionOnly :
    (Inv { capturing .settle 0x2009C4#24 2500#16 with bw := .running 1 } ∧
      ({ capturing .settle 0x2009C4#24 2500#16 with bw := .running 1 } : State).countdown.bw.fired = true ∧
      ∃ t, step { capturing .settle 0x2009C4#24 2500#16 with bw := .running 1 } = .next t) ∧
    (Inv (onCmd idle1 2#2) ∧ (onCmd idle1 2#2).busy = false ∧ (onCmd idle1 2#2).hostNow.cmd = 2#2 ∧
      ∃ t, step (onCmd idle1 2#2) = .next t) ∧
    (Inv idle1 ∧ idle1.cap ≠ .settle ∧ idle1.hostNow.cmd ≠ 2#2 ∧ ∃ t, step idle1 = .next t) :=
  ⟨⟨witness_inv_settle, by decide, _, rfl⟩, ⟨inv_of_check _ (by decide), by decide, by decide, _, rfl⟩,
    witness_inv_idle, by decide, by decide, _, rfl⟩

theorem witness_SyncResultIsWrittenByTheSearchOnly :
    (Inv (onCmd idle1 1#2) ∧ (onCmd idle1 1#2).busy = false ∧ (onCmd idle1 1#2).hostNow.cmd = 1#2) ∧
    (Inv idle1 ∧ idle1.busy = false ∧ idle1.hostNow.cmd ≠ 1#2) ∧
    (Inv (armed false 1) ∧ (armed false 1).cap ≠ .idle) ∧
    (∃ t, step (searching (.passHi 0) 9 9) = .next t ∧ (searching (.passHi 0) 9 9).sync ≠ .idle ∧ t.sync ≠ .idle) ∧
    (∃ t, Inv (searching (.passLo 23) 1 1) ∧ step (searching (.passLo 23) 1 1) = .next t ∧ t.sync = .idle) ∧
    (∃ t, Inv { base with sync := .prepos, sl := .running 1, power := .on } ∧
      step { base with sync := .prepos, sl := .running 1, power := .on } = .next t ∧ t.sync = .idle) :=
  ⟨⟨inv_of_check _ (by decide), by decide, by decide⟩, ⟨witness_inv_idle, by decide, by decide⟩,
    ⟨inv_of_check _ (by decide), by decide⟩, ⟨_, rfl, by decide, by decide⟩,
    ⟨_, witness_inv_pass_last_tick, rfl, by decide⟩, _, inv_of_check _ (by decide), rfl, by decide⟩

theorem witness_ResultsStandWhenBusyFalls :
    (∃ t, Inv (searching (.passLo 23) 1 1) ∧ (searching (.passLo 23) 1 1).busy = true ∧
      step (searching (.passLo 23) 1 1) = .next t ∧ t.busy = false) ∧
    (∃ t, Inv { capturing .settle 0x2009C4#24 2500#16 with bw := .running 1 } ∧
      step { capturing .settle 0x2009C4#24 2500#16 with bw := .running 1 } = .next t ∧ t.busy = false) :=
  ⟨⟨_, witness_inv_pass_last_tick, by decide, rfl, by decide⟩, _, witness_inv_settle, rfl, by decide⟩

theorem witness_DataLineCountsOnlyAtSampleTicks :
    (onLines (capturing (.waitLo 3) 4#24 4#16) true true).countdown.samplesData = false ∧
    (onLines (capturing (.waitLo 3) 4#24 4#16) false true).countdown.samplesData = true := by decide

/-! ## Encodings -/

/-- `DECODE(2500, 1, 1) = -625 = 0xFD8F` (R190), run by the step that completes a capture. -/
theorem test_presented_decode :
    (match step (State.reset.withFetchWord 18 0b000010011100010011) with
      | .next t => t.mag == 0xFD8F#16 && t.std == .inch && t.valValid
      | .fault _ => false
      | .refused _ => false) = true := by decide

theorem witness_DecodeOfEncodeIsTheOperation :
    (Instr.frame24 0xFFFFFF#24 true).wf = true ∧ (Instr.decode 0xFFFF#16 true true).wf = true := by decide

theorem witness_PresentedCommandIsRunByTheNextStep :
    decodeTableWord 8 0 = some .nop ∧ decodeTableWord 8 3 = some .reserved11 := by decide

end Sys2Proof.Tests
end

/-! The scope of the model (spec/00_scope.md): no operation and no step stops (R14, R243), and no rule reads the tick
period (R7). -/

namespace Sys2Proof.Machine

/-! ## No operation and no step stops -/

/-- Every operation answers with a next state: `Host.Outcome.fault` and `.refused` are in no arm (R14, R243). -/
theorem exec_total (i : Instr) (s : State) : ∃ t, exec i s = .next t := by
  cases i <;> exact ⟨_, rfl⟩

/-- A step is the operation of the tick between the beginning and the end of the tick (R51). -/
theorem step_eq_next_iff (s t : State) :
    step s = .next t ↔ ∃ u, exec s.operation s.beginTick = .next u ∧ s.endTick u = t := by
  unfold step
  cases exec s.operation s.beginTick <;> simp

theorem step_total (s : State) : ∃ t, step s = .next t := by
  obtain ⟨u, hu⟩ := exec_total s.operation s.beginTick
  exact ⟨s.endTick u, (step_eq_next_iff s _).mpr ⟨u, hu, rfl⟩⟩

/-- Settles O8: each arm of `exec` is a next state, and a step stops only where its operation does. -/
theorem noOperationFaultsOrIsRefused : Obligations.NoOperationFaultsOrIsRefused :=
  ⟨exec_total, step_total⟩

/-! ## No rule reads the tick period -/

/-- Another tick period passes through a choice that does not look at it. -/
@[simp] theorem State.withTickPeriod_ite (c : Prop) [Decidable c] (s t : State) (n : Nat) :
    (if c then s else t).withTickPeriod n = if c then s.withTickPeriod n else t.withTickPeriod n :=
  apply_ite (State.withTickPeriod · n) c s t

@[simp] theorem State.withTickPeriod_beginTick (s : State) (n : Nat) :
    (s.withTickPeriod n).beginTick = s.beginTick.withTickPeriod n := by
  unfold State.beginTick
  cases h : s.hostNow.rst <;> simp [h]

@[simp] theorem State.withTickPeriod_endTick (s t : State) (n : Nat) :
    (s.withTickPeriod n).endTick (t.withTickPeriod n) = (s.endTick t).withTickPeriod n := by
  unfold State.endTick
  cases h : s.hostNow.rst <;> simp [h]

/-- Every operation commutes with a change of the tick period: those that choose a transition choose it by the clock,
the timers and the state machines, and each transition only carries the period along (R7). -/
theorem exec_withTickPeriod (i : Instr) (s t : State) (n : Nat) (h : exec i s = .next t) :
    exec i (s.withTickPeriod n) = .next (t.withTickPeriod n) := by
  cases i <;> cases h
  case findGap | readValue | capture | waitHigh | waitLow => simp
  all_goals rfl

theorem step_withTickPeriod (s t : State) (n : Nat) (h : step s = .next t) :
    step (s.withTickPeriod n) = .next (t.withTickPeriod n) := by
  obtain ⟨u, hu, rfl⟩ := (step_eq_next_iff s t).mp h
  refine (step_eq_next_iff _ _).mpr ⟨u.withTickPeriod n, ?_, State.withTickPeriod_endTick s u n⟩
  rw [State.withTickPeriod_operation, State.withTickPeriod_beginTick]
  exact exec_withTickPeriod s.operation s.beginTick u n hu

/-- Settles O56: every operation and every step commutes with a change of the tick period, the output ports do not
show it, and the time of a number of ticks is that number times it. -/
theorem noRuleReadsTheTickPeriod : Obligations.NoRuleReadsTheTickPeriod :=
  ⟨exec_withTickPeriod, step_withTickPeriod, State.withTickPeriod_outputs, fun _ _ _ => rfl, Nat.mul_one⟩

end Sys2Proof.Machine

/-! The invariant of every reachable state (spec/10_state.md R22, R29, R53): what a tick of a search can do, said once
with its conditions, and that each transition keeps the invariant. -/

namespace Sys2Proof.Machine

/-! ## The bits of a frame under a sample -/

/-- A level shifted to bit `k` stands there alone, or is lost. -/
theorem zext24_shiftLeft_getLsbD (d : Level) (k j : Nat) :
    (zext24 d <<< k).getLsbD j = (decide (j = k ∧ j < 24) && d) := by
  rw [BitVec.getLsbD_shiftLeft, zext24_getLsbD]
  rcases Nat.lt_trichotomy j k with h | rfl | h
  · simp [h, h.ne]
  · simp
  · simp [h.ne', Nat.sub_ne_zero_of_lt h]

theorem zext16_shiftLeft_getLsbD (d : Level) (k j : Nat) :
    (zext16 d <<< k).getLsbD j = (decide (j = k ∧ j < 16) && d) := by
  rw [BitVec.getLsbD_shiftLeft, zext16_getLsbD]
  rcases Nat.lt_trichotomy j k with h | rfl | h
  · simp [h, h.ne]
  · simp
  · simp [h.ne', Nat.sub_ne_zero_of_lt h]

/-- A stored bit is the sampled level, and every other bit is the one before (R175). -/
theorem storeBit_getLsbD (raw : RawFrame) (k : Fin 24) (d : Level) (j : Nat) :
    (storeBit raw k d).getLsbD j = if j = k then d else raw.getLsbD j := by
  have hk : (k : Nat) < 24 := k.isLt
  rw [storeBit, BitVec.getLsbD_or, BitVec.getLsbD_and, BitVec.getLsbD_not, zext24_shiftLeft_getLsbD,
    zext24_shiftLeft_getLsbD]
  by_cases hj : j = k
  · simp [hj, hk]
  · have hlt : raw.getLsbD j = true → j < 24 := BitVec.lt_of_getLsbD
    simpa [hj] using hlt

/-- A fold over a bit that is still 0 puts the sampled level there, below index 16 (R176). -/
theorem foldBit_getLsbD (acc : Half) (k : Nat) (d : Level) (j : Nat) (hk : acc.getLsbD k = false) :
    (foldBit acc k d).getLsbD j = if j = k ∧ j < 16 then d else acc.getLsbD j := by
  by_cases h16 : k < 16
  · rw [foldBit_low acc k d h16, BitVec.getLsbD_or, zext16_shiftLeft_getLsbD]
    by_cases hj : j = k
    · rw [hj, hk]
      simp [h16]
    · simp [hj]
  · have h : ¬(j = k ∧ j < 16) := by omega
    rw [foldBit_high acc k d (Nat.not_lt.mp h16), if_neg h]

/-- Sampling a bit that is still 0 keeps the accumulator the count of the frame (R22). -/
theorem frameCount_storeBit (raw : RawFrame) (k : Fin 24) (d : Level) (hk : raw.getLsbD k = false) :
    frameCount (storeBit raw k d) = foldBit (frameCount raw) k d := by
  apply BitVec.eq_of_getLsbD_eq
  intro j hj
  rw [foldBit_getLsbD _ _ _ _ (by rw [frameCount_getLsbD, hk, Bool.and_false]), frameCount_getLsbD, frameCount_getLsbD,
    storeBit_getLsbD]
  simp [hj]

/-- The sample of bit 0 into a cleared frame is in `raw` and `acc` alike (R171). -/
theorem frameCount_zext24 (d : Level) : frameCount (zext24 d) = zext16 d := by
  cases d <;> rfl

/-- A frame below `2^k` has none of the bits from `k` on. -/
theorem getLsbD_of_toNat_lt {raw : RawFrame} {k j : Nat} (h : raw.toNat < 2 ^ k) (hj : k ≤ j) :
    raw.getLsbD j = false := by
  rw [← BitVec.testBit_toNat]
  exact Nat.testBit_lt_two_pow (h.trans_le (Nat.pow_le_pow_right (by decide) hj))

/-- After the sample of bit `k` the bits from `k + 1` on are still 0 (R176). -/
theorem toNat_storeBit_lt {raw : RawFrame} {k : Fin 24} (d : Level) (h : raw.toNat < 2 ^ (k : Nat)) :
    (storeBit raw k d).toNat < 2 ^ ((k : Nat) + 1) := by
  apply Nat.lt_pow_two_of_testBit
  intro j hj
  have hjk : j ≠ k := by omega
  rw [BitVec.testBit_toNat, storeBit_getLsbD, if_neg hjk, getLsbD_of_toNat_lt h (by omega)]

/-! ## The range of DECODE -/

/-- One halving leaves at most 15 bits. -/
theorem halved_toNat_lt (acc : Half) (inch : Level) : (halved acc inch).toNat < 2 ^ 15 := by
  have h := acc.isLt
  cases inch
  · rw [halved_mm_toNat]; omega
  · rw [halved_inch_toNat]; omega

/-- −32768 is its own negation, and no halved count is 32768 (R92, R194). -/
theorem decodeMagnitude_ne_min (acc : Half) (neg : Bool) (inch : Level) :
    decodeMagnitude acc neg inch ≠ 0x8000#16 := by
  have hne : halved acc inch ≠ 0x8000#16 := by
    intro h
    have hlt := halved_toNat_lt acc inch
    simp [h] at hlt
  cases neg
  · exact hne
  · rw [decodeMagnitude_neg, ne_eq, BitVec.neg_eq_iff_eq_neg]
    exact hne

/-! ## What a tick of the search can do -/

/-- The transitions of a search in progress, each with the conditions under which it is the one taken: `s` is the
state after the countdown (R130). -/
inductive SearchStep (s : State) : State → Prop where
  /-- The power-off timer, at its three places (R138). -/
  | exit (hp : s.po.fired = true) (hs : s.sync.inPass = true ∨ s.sync = .retry ∧ s.sl.fired = true) :
      SearchStep s s.powerOffExit
  /-- The alignment timer, when the power-off timer has not fired (R139). -/
  | misaligned (hs : s.sync.inPass = true) (hp : s.po.fired = false) (ha : s.al.fired = true) :
      SearchStep s s.misalignmentExit
  /-- The return to high after the last cell (R143). -/
  | success (hs : s.sync = .final) (hp : s.po.fired = false) (ha : s.al.fired = false) (hc : s.clk = true) :
      SearchStep s s.alignmentSuccess
  /-- A level wait of the pass, ended or not (R135, R136, R140). -/
  | waiting (hs : s.sync.inPass = true) (hp : s.po.fired = false) (ha : s.al.fired = false)
      (hn : ¬(s.sync = .final ∧ s.clk = true)) (r : SyncReg) (hr : r.inPass = true) :
      SearchStep s { s with sync := r }
  /-- The end of the retry sleep, a new pass (R142). -/
  | newPass (hs : s.sync = .retry) (hl : s.sl.fired = true) (hp : s.po.fired = false) :
      SearchStep s { s with sl := .stopped, al := .running s.params.tAlign, sync := .passHi 0 }
  /-- The end of the pre-positioning sleep (R145). -/
  | aligned (hs : s.sync = .prepos) (hl : s.sl.fired = true) : SearchStep s s.completeSearch
  /-- A sleep that goes on (R141, R144). -/
  | asleep (hs : s.sync = .retry ∨ s.sync = .prepos) (hl : s.sl.fired = false) : SearchStep s s

/-- In a pass the timers come first, in the order of R137; otherwise the tick is the level wait. -/
theorem State.passTick_searchStep {s w : State} (hs : s.sync.inPass = true)
    (hw : s.po.fired = false → s.al.fired = false → SearchStep s w) : SearchStep s (s.passTick w) := by
  rcases s.passTick_cases w with ⟨hp, e⟩ | ⟨hp, ha, e⟩ | ⟨hp, ha, e⟩ <;> rw [e]
  · exact .exit hp (.inl hs)
  · exact .misaligned hs hp ha
  · exact hw hp ha

/-- The WAIT_HIGH of a pass goes on, begins the low phase, or is the alignment success. -/
theorem State.syncWaitHigh_searchStep {s : State} (hs : s.sync.inPass = true) (hp : s.po.fired = false)
    (ha : s.al.fired = false) : SearchStep s s.syncWaitHigh := by
  rcases s.syncWaitHigh_cases with ⟨_, k, hk, e⟩ | ⟨hc, hf, e⟩ | ⟨hn, e⟩ <;> rw [e]
  · exact .waiting hs hp ha (by simp [hk]) _ rfl
  · exact .success hf hp ha hc
  · refine .waiting hs hp ha ?_ s.sync hs
    rintro ⟨hf, hc⟩
    rcases hn with hn | ⟨-, hn⟩
    · simp [hc] at hn
    · exact hn hf

/-- The WAIT_LOW of a pass goes on, or leads to the next cell or the final wait. -/
theorem State.syncWaitLow_searchStep {s : State} {k : Fin 24} (hs : s.sync = .passLo k) (hp : s.po.fired = false)
    (ha : s.al.fired = false) : SearchStep s s.syncWaitLow := by
  have hpass : s.sync.inPass = true := by rw [hs]; rfl
  have hn : ¬(s.sync = .final ∧ s.clk = true) := by simp [hs]
  rcases s.syncWaitLow_cases with ⟨_, j, _, e⟩ | ⟨_, e⟩ <;> rw [e]
  · refine .waiting hpass hp ha hn _ ?_
    rcases afterCell_cases j with ⟨_, ej⟩ | ⟨_, ej⟩ <;> rw [ej] <;> rfl
  · exact .waiting hpass hp ha hn s.sync hpass

/-- A tick of a search in progress is one of its transitions. -/
theorem State.searchTick_searchStep {s : State} (hs : s.sync ≠ .idle) : SearchStep s s.searchTick := by
  unfold State.searchTick
  split
  case _ hi => exact absurd hi hs
  case _ k hk =>
    have hpass : s.sync.inPass = true := by rw [hk]; rfl
    exact State.passTick_searchStep hpass (State.syncWaitHigh_searchStep hpass)
  case _ k hk => exact State.passTick_searchStep (by rw [hk]; rfl) (State.syncWaitLow_searchStep hk)
  case _ hf =>
    have hpass : s.sync.inPass = true := by rw [hf]; rfl
    exact State.passTick_searchStep hpass (State.syncWaitHigh_searchStep hpass)
  case _ hr =>
    cases hl : s.sl.fired
    · exact .asleep (.inl hr) hl
    · rcases State.startPass_cases { s with sl := .stopped } with ⟨hp, e⟩ | ⟨hp, e⟩ <;> rw [if_pos rfl, e]
      · exact .exit hp (.inr ⟨hr, hl⟩)
      · exact .newPass hr hl hp
  case _ hq =>
    cases hl : s.sl.fired
    · exact .asleep (.inr hq) hl
    · exact .aligned hq hl

/-! ## The invariant -/

theorem Timer.countdown_runsAtMost {t : Timer} {d : Nat} (h : t.runsAtMost d = true) :
    t.countdown.runsAtMost d = true := by
  cases t with
  | stopped => exact h
  | running n => simp only [Timer.runsAtMost, Timer.countdown_running, decide_eq_true_eq] at h ⊢; omega

theorem Timer.countdown_atMost {t : Timer} {d : Nat} (h : t.atMost d = true) : t.countdown.atMost d = true := by
  cases t with
  | stopped => exact h
  | running n => simp only [Timer.atMost, Timer.countdown_running, decide_eq_true_eq] at h ⊢; omega

@[simp] theorem Timer.runsAtMost_self (d : Nat) : (Timer.running d).runsAtMost d = true := by
  simp [Timer.runsAtMost]

@[simp] theorem Timer.atMost_self (d : Nat) : (Timer.running d).atMost d = true := by
  simp [Timer.atMost]

theorem Inv.countdown {s : State} (h : Inv s) : Inv s.countdown :=
  { h with
    poSearch := fun hs => Timer.countdown_runsAtMost (h.poSearch hs)
    poElse := fun hs hr => (Timer.countdown_eq_stopped _).mpr (h.poElse hs hr)
    alPass := fun hs => Timer.countdown_runsAtMost (h.alPass hs)
    alElse := fun hs => (Timer.countdown_eq_stopped _).mpr (h.alElse hs)
    slRetry := fun hs => Timer.countdown_runsAtMost (h.slRetry hs)
    slPrepos := fun hs => Timer.countdown_runsAtMost (h.slPrepos hs)
    slElse := fun hr hq => (Timer.countdown_eq_stopped _).mpr (h.slElse hr hq)
    cpoArmed := Timer.countdown_atMost h.cpoArmed
    cpoElse := fun hc => (Timer.countdown_eq_stopped _).mpr (h.cpoElse hc)
    bwSettle := fun hc => Timer.countdown_runsAtMost (h.bwSettle hc)
    bwElse := fun hc => (Timer.countdown_eq_stopped _).mpr (h.bwElse hc) }

/-- The end of a tick touches no register that the invariant speaks of. -/
theorem Inv.latchClock_nextTick {s : State} (h : Inv s) : Inv s.latchClock.nextTick := { h with }

/-- The registers of a reset state satisfy the invariant, whatever its well-formed parameters. -/
theorem Inv.of_toReset {s : State} (h : s.params.wf = true) : Inv s.toReset where
  params := h
  oneOperation := .inl rfl
  poSearch := by rintro (hs | hs) <;> cases hs
  poElse _ _ := rfl
  alPass := nofun
  alElse _ := rfl
  slRetry := nofun
  slPrepos := nofun
  slElse _ _ := rfl
  cpoArmed := rfl
  cpoElse _ := rfl
  bwSettle := nofun
  bwElse _ := rfl
  accRaw := rfl
  capIndex := nofun
  rawFresh := nofun
  preposOn := nofun
  captureOn hk := absurd rfl hk
  magRange := (by decide : (0#16 : Half) ≠ 0x8000#16)

/-! ### The search keeps the invariant -/

/-- While a search is in progress no capture is (R29). -/
theorem Inv.cap_idle {s : State} (h : Inv s) (hs : s.sync ≠ .idle) : s.cap = .idle :=
  h.oneOperation.resolve_left hs

/-- While a reading is in progress no search is (R29). -/
theorem Inv.sync_idle {s : State} (h : Inv s) (hc : s.cap ≠ .idle) : s.sync = .idle :=
  h.oneOperation.resolve_right hc

theorem Inv.powerOffExit {s : State} (h : Inv s) (hc : s.cap = .idle) : Inv s.powerOffExit :=
  { h with
    oneOperation := .inl rfl
    poSearch := by rintro (hs | hs) <;> cases hs
    poElse := fun _ _ => rfl
    alPass := nofun
    alElse := fun _ => rfl
    slRetry := nofun
    slPrepos := nofun
    slElse := fun _ _ => rfl
    preposOn := nofun
    captureOn := by simp [hc, CapReg.waitingFor] }

theorem Inv.misalignmentExit {s : State} (h : Inv s) (hs : s.sync.inPass = true) : Inv s.misalignmentExit :=
  { h with
    oneOperation := .inr (h.cap_idle (by intro e; simp [e, SyncReg.inPass] at hs))
    poSearch := fun _ => h.poSearch (.inl hs)
    poElse := fun _ hr => absurd rfl hr
    alPass := nofun
    alElse := fun _ => rfl
    slRetry := fun _ => Timer.runsAtMost_self _
    slPrepos := nofun
    slElse := fun hr => absurd rfl hr
    preposOn := nofun }

theorem Inv.alignmentSuccess {s : State} (h : Inv s) (hc : s.cap = .idle) : Inv s.alignmentSuccess :=
  { h with
    oneOperation := .inr hc
    poSearch := by rintro (hs | hs) <;> cases hs
    poElse := fun _ _ => rfl
    alPass := nofun
    alElse := fun _ => rfl
    slRetry := nofun
    slPrepos := fun _ => Timer.runsAtMost_self _
    slElse := fun _ hq => absurd rfl hq
    preposOn := fun _ => rfl
    captureOn := fun _ => rfl }

theorem Inv.completeSearch {s : State} (h : Inv s) (hs : s.sync = .prepos) : Inv s.completeSearch :=
  { h with
    oneOperation := .inl rfl
    poSearch := by rintro (hi | hi) <;> cases hi
    poElse := fun _ _ => h.poElse (by simp [hs, SyncReg.inPass]) (by simp [hs])
    alPass := nofun
    alElse := fun _ => h.alElse (by simp [hs, SyncReg.inPass])
    slRetry := nofun
    slPrepos := nofun
    slElse := fun _ _ => rfl
    preposOn := nofun }

/-- The states of a pass differ in nothing that the invariant asks for. -/
theorem Inv.withinPass {s : State} (h : Inv s) (hs : s.sync.inPass = true) {r : SyncReg} (hr : r.inPass = true) :
    Inv { s with sync := r } := by
  have hne : ∀ q : SyncReg, q.inPass = false → s.sync ≠ q ∧ r ≠ q := by
    intro q hq
    constructor <;> rintro rfl <;> simp_all
  exact { h with
    oneOperation := .inr (h.cap_idle (hne .idle rfl).1)
    poSearch := fun _ => h.poSearch (.inl hs)
    poElse := fun hp => absurd hp (by simp [hr])
    alPass := fun _ => h.alPass hs
    alElse := fun hp => absurd hp (by simp [hr])
    slRetry := fun e => absurd e (hne .retry rfl).2
    slPrepos := fun e => absurd e (hne .prepos rfl).2
    slElse := fun _ _ => h.slElse (hne .retry rfl).1 (hne .prepos rfl).1
    preposOn := fun e => absurd e (hne .prepos rfl).2 }

/-- A pass may begin wherever no reading is in progress: it arms `al`, and needs `po` to run and `sl` to be stopped. -/
theorem Inv.beginPass {s : State} (h : Inv s) (hc : s.cap = .idle) (r : SyncResult) {p : Timer}
    (hp : p.runsAtMost s.params.tPowerOff = true) :
    Inv { s with syncResult := r, po := p, sl := .stopped, al := .running s.params.tAlign, sync := .passHi 0 } :=
  { h with
    oneOperation := .inr hc
    poSearch := fun _ => hp
    poElse := nofun
    alPass := fun _ => Timer.runsAtMost_self _
    alElse := nofun
    slRetry := nofun
    slPrepos := nofun
    slElse := fun _ _ => rfl
    preposOn := nofun }

theorem Inv.searchStep {s t : State} (h : Inv s) (hs : s.sync ≠ .idle) (ht : SearchStep s t) : Inv t := by
  have hc := h.cap_idle hs
  cases ht with
  | exit => exact h.powerOffExit hc
  | misaligned hs => exact h.misalignmentExit hs
  | success => exact h.alignmentSuccess hc
  | waiting hs _ _ _ r hr => exact h.withinPass hs hr
  | newPass hs => exact h.beginPass hc s.syncResult (h.poSearch (.inr hs))
  | aligned hs => exact h.completeSearch hs
  | asleep => exact h

/-! ### The acceptance of a command keeps the invariant -/

/-- A freshly armed power-off timer has not fired, its duration being at least 1: the first pass begins (R132). -/
theorem State.acceptFindGap_eq {s : State} (hp : 1 ≤ s.params.tPowerOff) :
    s.acceptFindGap = { s with
      syncResult := .noResult, po := .running s.params.tPowerOff
      al := .running s.params.tAlign, sync := .passHi 0 } := by
  simp [State.acceptFindGap, State.startPass, Nat.one_le_iff_ne_zero.mp hp]

theorem Inv.one_le_tPowerOff {s : State} (h : Inv s) : 1 ≤ s.params.tPowerOff := by
  have hw := h.params
  simp only [Params.wf, Bool.and_eq_true, decide_eq_true_eq] at hw
  omega

theorem Inv.acceptFindGap {s : State} (h : Inv s) (hi : s.isIdle = true) : Inv s.acceptFindGap := by
  obtain ⟨hs, hc⟩ := s.isIdle_iff.mp hi
  have hsl : s.sl = .stopped := h.slElse (by simp [hs]) (by simp [hs])
  rw [State.acceptFindGap_eq h.one_le_tPowerOff]
  simpa only [← hsl] using h.beginPass hc .noResult (Timer.runsAtMost_self s.params.tPowerOff)

theorem Inv.acceptReadValue {s : State} (h : Inv s) (hi : s.isIdle = true) : Inv s.acceptReadValue := by
  obtain ⟨hs, hc⟩ := s.isIdle_iff.mp hi
  exact { h with
    oneOperation := .inl hs
    cpoArmed := Timer.atMost_self _
    cpoElse := fun ha => absurd rfl ha
    bwSettle := nofun
    bwElse := fun _ => h.bwElse (by simp [hc])
    capIndex := nofun
    rawFresh := nofun
    captureOn := fun hk => absurd rfl hk }

/-! ### The reading keeps the invariant -/

theorem Inv.captureStart {s : State} (h : Inv s) (hc : s.cap = .armed) : Inv s.captureStart :=
  { h with
    oneOperation := .inl (h.sync_idle (by simp [hc]))
    cpoArmed := rfl
    cpoElse := fun _ => rfl
    bwSettle := nofun
    bwElse := fun _ => h.bwElse (by simp [hc])
    accRaw := (frameCount_zext24 s.data).symm
    capIndex := by rintro k ⟨⟩; exact Nat.le_refl 1
    rawFresh := by rintro k ⟨⟩; cases hd : s.data <;> simp [hd]
    preposOn := fun _ => rfl
    captureOn := fun _ => rfl }

theorem Inv.armedTimeout {s : State} (h : Inv s) (hc : s.cap = .armed) : Inv s.armedTimeout :=
  { h with
    cpoArmed := rfl
    cpoElse := fun _ => rfl
    preposOn := fun hq => absurd hq (by simp [h.sync_idle (by simp [hc] : s.cap ≠ .idle)])
    captureOn := by simp [hc, CapReg.waitingFor] }

/-- The states of one bit differ in nothing that the invariant asks for. -/
theorem Inv.withinBit {s : State} (h : Inv s) {k : Fin 24} (hw : s.cap.waitingFor = some k.val) {c : CapReg}
    (hcw : c.waitingFor = some k.val) : Inv { s with cap := c } := by
  have hne : ∀ q : CapReg, q.waitingFor ≠ some k.val → s.cap ≠ q ∧ c ≠ q := by
    intro q hq
    constructor <;> rintro rfl <;> simp_all
  have hsettle : CapReg.settle.waitingFor ≠ some k.val := by simp [CapReg.waitingFor]; omega
  exact { h with
    oneOperation := .inl (h.sync_idle (hne .idle nofun).1)
    cpoElse := fun _ => h.cpoElse (hne .armed nofun).1
    bwSettle := fun e => absurd e (hne .settle hsettle).2
    bwElse := fun _ => h.bwElse (hne .settle hsettle).1
    capIndex := by simpa [hcw] using h.capIndex k hw
    rawFresh := by simpa [hcw] using h.rawFresh k hw
    captureOn := fun _ => h.captureOn (by simp [hw]) }

/-- The frame after the sample of bit `k`, with the state of the next bit or the settle delay. -/
theorem Inv.sampleBit {s : State} (h : Inv s) {k : Fin 24} (hc : s.cap = .waitLo k) : Inv (s.sampleBit k) := by
  have hw : s.cap.waitingFor = some k.val := by rw [hc]; rfl
  have hfresh := h.rawFresh k hw
  have hacc : foldBit s.acc k s.data = frameCount (storeBit s.raw k s.data) := by
    rw [h.accRaw, frameCount_storeBit _ _ _ (getLsbD_of_toNat_lt hfresh le_rfl)]
  have hsync := h.sync_idle (by simp [hc])
  have hcpo := h.cpoElse (by simp [hc])
  have hon : s.power = .on := h.captureOn (by simp [hw])
  rcases s.sampleBit_cases k with ⟨hk, e⟩ | ⟨rfl, e⟩ <;> rw [e]
  · have hval : (k + 1 : Fin 24).val = k.val + 1 := by simp [Fin.val_add]; omega
    exact { h with
      oneOperation := .inl hsync
      cpoElse := fun _ => hcpo
      bwSettle := nofun
      bwElse := fun _ => h.bwElse (by simp [hc])
      accRaw := hacc
      capIndex := by rintro j ⟨⟩; omega
      rawFresh := by rintro j ⟨⟩; rw [hval]; exact toNat_storeBit_lt s.data hfresh
      captureOn := fun _ => hon }
  · exact { h with
      oneOperation := .inl hsync
      cpoElse := fun _ => hcpo
      bwSettle := fun _ => Timer.runsAtMost_self _
      bwElse := fun hb => absurd rfl hb
      accRaw := hacc
      capIndex := by rintro j ⟨⟩; decide
      rawFresh := by rintro j ⟨⟩; exact toNat_storeBit_lt s.data hfresh
      captureOn := fun _ => hon }

theorem Inv.completeCapture {s : State} (h : Inv s) (hc : s.cap = .settle) : Inv s.completeCapture :=
  { h with
    oneOperation := .inr rfl
    cpoElse := fun _ => h.cpoElse (by simp [hc])
    bwSettle := nofun
    bwElse := fun _ => rfl
    capIndex := nofun
    rawFresh := nofun
    captureOn := fun hk => absurd rfl hk
    magRange := decodeMagnitude_ne_min _ _ _ }

theorem Inv.armedTick {s : State} (h : Inv s) (hc : s.cap = .armed) : Inv s.armedTick := by
  rcases s.armedTick_cases with ⟨_, e⟩ | ⟨_, _, e⟩ | ⟨_, _, e⟩ <;> rw [e]
  · exact h.captureStart hc
  · exact h.armedTimeout hc
  · exact h

theorem Inv.captureTick {s : State} (h : Inv s) : Inv s.captureTick := by
  rcases s.captureTick_cases with ⟨hc, _, e⟩ | ⟨k, hc, e⟩ | ⟨k, hc, _, e⟩ | ⟨k, hc, _, e⟩ | ⟨hc, _, e⟩ | e <;> rw [e]
  · exact h.captureStart hc
  · exact h.withinBit (k := k) (by rw [hc]; rfl) rfl
  · exact h.withinBit (k := k) (by rw [hc]; rfl) rfl
  · exact h.sampleBit hc
  · exact h.completeCapture hc
  · exact h

/-- The transition of an idle tick, by the command code: the one in `step_of_idle` and `step_cases` (R211). -/
def State.idleTick (s : State) (c : CmdCode) : State :=
  if c = 1#2 then s.acceptFindGap else if c = 2#2 then s.acceptReadValue else s

/-- What an idle tick can do. -/
theorem State.idleTick_cases (s : State) (c : CmdCode) :
    (c = 1#2 ∧ s.idleTick c = s.acceptFindGap) ∨ (c = 2#2 ∧ s.idleTick c = s.acceptReadValue) ∨
    (c ≠ 1#2 ∧ c ≠ 2#2 ∧ s.idleTick c = s) := by
  unfold State.idleTick
  by_cases h1 : c = 1#2
  · simp [h1]
  · by_cases h2 : c = 2#2 <;> simp [h1, h2]

theorem Inv.idleTick {s : State} (h : Inv s) (hi : s.isIdle = true) (c : CmdCode) : Inv (s.idleTick c) := by
  rcases s.idleTick_cases c with ⟨_, e⟩ | ⟨_, e⟩ | ⟨_, _, e⟩ <;> rw [e]
  · exact h.acceptFindGap hi
  · exact h.acceptReadValue hi
  · exact h

/-- Settles O11: the transition of the tick keeps the invariant, whichever of the cases of R51 it is. -/
theorem everyStepKeepsTheInvariant : Obligations.EveryStepKeepsTheInvariant := by
  intro s t h hst
  have hu := h.countdown
  rcases step_cases s t hst with ⟨_, rfl⟩ | ⟨_, hi, rfl⟩ | ⟨_, hs, rfl⟩ | ⟨_, _, hc, rfl⟩ | ⟨_, _, _, _, rfl⟩
  · exact { Inv.of_toReset h.params with }
  · exact (hu.idleTick hi s.hostNow.cmd).latchClock_nextTick
  · exact (hu.searchStep hs (State.searchTick_searchStep hs)).latchClock_nextTick
  · exact (hu.armedTick hc).latchClock_nextTick
  · exact hu.captureTick.latchClock_nextTick

/-- Settles O10: the reset state is its own reset, and its parameters are well formed. -/
theorem resetStateSatisfiesTheInvariant : Obligations.ResetStateSatisfiesTheInvariant :=
  Inv.of_toReset (s := State.reset) (by decide)

end Sys2Proof.Machine

/-! A step as the operation it runs (spec/10_state.md R51), the timers (R49) and the output ports (R36). -/

namespace Sys2Proof.Machine

/-! ## A step as the operation it runs -/

/-- The operations that a step can run: the four codes, the reset, and the going on of a search or a reading
(R51, R94). -/
theorem State.operation_cases (s : State) :
    s.operation = .nop ∨ s.operation = .reserved11 ∨ s.operation = .rst ∨ s.operation = .findGap ∨
      s.operation = .readValue ∨ s.operation = .capture := by
  by_cases hh : s.hostNow.rst = true ∨ s.isIdle = true
  · rw [State.operation_of_host s hh, decodeHost, decodeCmd]
    repeat' split
    all_goals simp
  · obtain ⟨hr, hi⟩ : s.hostNow.rst = false ∧ s.isIdle = false := by simpa using hh
    by_cases hs : s.sync = .idle
    · have hc : s.cap ≠ .idle := fun hc => by simp [State.isIdle, hs, hc] at hi
      by_cases ha : s.cap = .armed
      · simp [State.operation_of_armed s hr hs ha]
      · simp [State.operation_of_capture s hr hs hc ha]
    · simp [State.operation_of_search s hr hs]

/-- The operation of a step leaves the outside agents alone (R13). -/
theorem exec_operation_feeds (s u t : State) (h : exec s.operation u = .next t) :
    t.host = u.host ∧ t.lines = u.lines := by
  rcases s.operation_cases with e | e | e | e | e | e <;> rw [e] at h <;> cases h
  · exact ⟨rfl, rfl⟩
  · exact ⟨rfl, rfl⟩
  · exact ⟨rfl, rfl⟩
  · split <;> simp
  · split
    · exact ⟨rfl, rfl⟩
    · split
      · split <;> simp
      · exact ⟨rfl, rfl⟩
  · split <;> simp

/-- A step is the operation of its tick; beside it stand the countdown, `clk_prev` and the environment's next tick
(R51). -/
theorem step_eq_operation (s : State) :
    ∃ t, exec s.operation s.beginTick = .next t ∧
      step s = .next { t with
        clkPrev := if s.hostNow.rst then t.clkPrev else s.clk
        host := s.hostNext, lines := s.linesNext } := by
  obtain ⟨t, ht⟩ := exec_total s.operation s.beginTick
  refine ⟨t, ht, (step_eq_next_iff s _).mpr ⟨t, ht, ?_⟩⟩
  have hbegin : s.beginTick.host = s.host ∧ s.beginTick.lines = s.lines := by
    unfold State.beginTick
    split <;> exact ⟨rfl, rfl⟩
  obtain ⟨hhost, hlines⟩ := exec_operation_feeds s _ t ht
  have hhost := hhost.trans hbegin.1
  have hlines := hlines.trans hbegin.2
  unfold State.endTick
  split <;> simp [State.nextTick, State.latchClock, State.hostNext, State.linesNext, State.clk, State.linesNow,
    hhost, hlines]

/-- Settles O3: the operation of such a tick is the host's word, decoded. -/
theorem idleOrResetTickRunsTheHostsWord : Obligations.IdleOrResetTickRunsTheHostsWord := by
  intro s h
  have hop := State.operation_of_host s (h.imp_right (by simp [State.busy]))
  simpa only [hop, State.beginTick] using step_eq_operation s

/-- Settles O4: the operation of a busy tick is that of the search, of the armed trigger or of the capture. -/
theorem busyTickRunsTheOperationInProgress : Obligations.BusyTickRunsTheOperationInProgress := by
  intro s hr hb
  obtain ⟨t, ht, hstep⟩ := step_eq_operation s
  rw [State.beginTick, if_neg (by simp [hr])] at ht
  rw [if_neg (by simp [hr])] at hstep
  refine ⟨s.operation, t, State.operation_of_search s hr, State.operation_of_armed s hr, ?_, ht, hstep⟩
  intro hs ha
  exact State.operation_of_capture s hr hs (fun hc => (s.busy_iff.mp hb) ⟨hs, hc⟩) ha

/-- Settles O7: the end of a tick without reset writes the clock level of that tick into `clk_prev`. -/
theorem clkPrevFollowsTheClock : Obligations.ClkPrevFollowsTheClock := by
  intro s t hr ht
  obtain ⟨u, -, hu⟩ := step_eq_operation s
  obtain rfl := Host.Outcome.next.inj (ht.symm.trans hu)
  simp [hr]

/-! ## Timers -/

theorem Timer.iterate_countdown_stopped (n : Nat) : Timer.countdown^[n] .stopped = .stopped :=
  Function.iterate_fixed rfl n

theorem Timer.iterate_countdown_running (d n : Nat) : Timer.countdown^[n] (.running d) = .running (d - n) := by
  induction n with
  | zero => rfl
  | succ n ih => rw [Function.iterate_succ_apply', ih, Timer.countdown_running, Nat.sub_sub]

/-- Settles O12: after `n` countdowns a timer has `d - n` ticks to go. -/
theorem timerFiresExactlyWhenItsTicksAreOver : Obligations.TimerFiresExactlyWhenItsTicksAreOver := by
  intro d n
  rw [Timer.iterate_countdown_running, Timer.iterate_countdown_stopped]
  simp [Nat.sub_eq_zero_iff_le]

/-! ## The ports -/

/-- Settles O1: the table of R52, the durations of R6 and the ports of R36, read off. -/
theorem resetStateHasTheSpecifiedValues : Obligations.ResetStateHasTheSpecifiedValues := by
  unfold Obligations.ResetStateHasTheSpecifiedValues
  repeat' apply And.intro
  all_goals rfl

/-- Settles O40: `powered` is whether `power` is On. -/
theorem isPoweredReadsPowerAtAnyTick : Obligations.IsPoweredReadsPowerAtAnyTick := by
  intro s
  constructor <;> intro hp <;> simp [State.returning, State.powered, hp]

/-- Settles O50: `busy` and the two encodings through their laws, `crit` and `irq_en` by the states of `cap`. -/
theorem outputPortsShowTheState : Obligations.OutputPortsShowTheState := by
  intro s
  have hbusy : s.outputs.busy = true ↔ s.sync ≠ .idle ∨ s.cap ≠ .idle := s.busy_iff.trans not_and_or
  have hpowered : s.outputs.powered = 1#1 ↔ s.power = .on := by
    cases hp : s.power <;> simp [State.outputs, PowerState.code, hp]
  have hcrit : s.outputs.crit = true ↔ ∃ k, s.cap = .waitHi k ∨ s.cap = .waitLo k := by
    cases hc : s.cap <;> simp [State.outputs, State.crit, hc]
  have hirq : s.outputs.irqEn = true ↔ s.cap = .armed := by simp [State.outputs, State.irqEn]
  have hstd : s.outputs.std = 1#1 ↔ s.std = .inch := by
    cases hd : s.std <;> simp [State.outputs, Standard.code, hd]
  have hresult : (s.outputs.syncResult = 0#2 ↔ s.syncResult = .noResult) ∧
      (s.outputs.syncResult = 1#2 ↔ s.syncResult = .aligned) ∧
      (s.outputs.syncResult = 2#2 ↔ s.syncResult = .powerOff) ∧ s.outputs.syncResult ≠ 3#2 := by
    cases hr : s.syncResult <;> simp [State.outputs, SyncResult.code, hr]
  obtain ⟨h0, h1, h2, h3⟩ := hresult
  exact ⟨hbusy, hpowered, h0, h1, h2, h3, rfl, rfl, hstd, hcrit, hirq⟩

end Sys2Proof.Machine

/-! The writers of the measurement, of `sync_result` and of `power` (spec/10_state.md R23, R24, R30 to R32), and that no
transition reads `power`. -/

namespace Sys2Proof.Machine

/-! ## What each side leaves to the other -/

/-- A search leaves the capture side and the measurement (R149). -/
theorem SearchStep.captureSide {s t : State} (h : SearchStep s t) :
    t.cap = s.cap ∧ t.raw = s.raw ∧ t.acc = s.acc ∧ t.mag = s.mag ∧ t.std = s.std ∧ t.valValid = s.valValid ∧
      t.cpo = s.cpo ∧ t.bw = s.bw := by
  cases h <;> exact ⟨rfl, rfl, rfl, rfl, rfl, rfl, rfl, rfl⟩

/-- An armed trigger leaves the search side. -/
theorem State.armedTick_searchSide (s : State) :
    s.armedTick.sync = s.sync ∧ s.armedTick.syncResult = s.syncResult ∧ s.armedTick.po = s.po ∧
      s.armedTick.al = s.al ∧ s.armedTick.sl = s.sl := by
  rcases s.armedTick_cases with ⟨_, e⟩ | ⟨_, _, e⟩ | ⟨_, _, e⟩ <;> rw [e] <;> exact ⟨rfl, rfl, rfl, rfl, rfl⟩

/-- A capture leaves the search side. -/
theorem State.captureTick_searchSide (s : State) :
    s.captureTick.sync = s.sync ∧ s.captureTick.syncResult = s.syncResult ∧ s.captureTick.po = s.po ∧
      s.captureTick.al = s.al ∧ s.captureTick.sl = s.sl := by
  rcases s.captureTick_cases with ⟨_, _, e⟩ | ⟨k, _, e⟩ | ⟨k, _, _, e⟩ | ⟨k, _, _, e⟩ | ⟨_, _, e⟩ | e <;> rw [e]
  case inr.inr.inr.inl =>
    rcases s.sampleBit_cases k with ⟨_, e⟩ | ⟨_, e⟩ <;> rw [e] <;> exact ⟨rfl, rfl, rfl, rfl, rfl⟩
  all_goals exact ⟨rfl, rfl, rfl, rfl, rfl⟩

/-! ## The writers of the measurement -/

/-- An armed trigger leaves the measurement. -/
theorem State.armedTick_measurement (s : State) :
    s.armedTick.mag = s.mag ∧ s.armedTick.std = s.std ∧ s.armedTick.valValid = s.valValid := by
  rcases s.armedTick_cases with ⟨_, e⟩ | ⟨_, _, e⟩ | ⟨_, _, e⟩ <;> rw [e] <;> exact ⟨rfl, rfl, rfl⟩

/-- A capture leaves the measurement but in its completion step (R198). -/
theorem State.captureTick_measurement (s : State) (hn : ¬(s.cap = .settle ∧ s.bw.fired = true)) :
    s.captureTick.mag = s.mag ∧ s.captureTick.std = s.std ∧ s.captureTick.valValid = s.valValid := by
  rcases s.captureTick_cases with ⟨_, _, e⟩ | ⟨k, _, e⟩ | ⟨k, _, _, e⟩ | ⟨k, _, _, e⟩ | ⟨hc, hb, _⟩ | e
  case inr.inr.inr.inl =>
    rcases s.sampleBit_cases k with ⟨_, e'⟩ | ⟨_, e'⟩ <;> rw [e, e'] <;> exact ⟨rfl, rfl, rfl⟩
  case inr.inr.inr.inr.inl => exact absurd ⟨hc, hb⟩ hn
  all_goals rw [e]; exact ⟨rfl, rfl, rfl⟩

/-- The completion step comes when the settle delay is over (R181). -/
theorem State.captureTick_of_settled (s : State) (hc : s.cap = .settle) (hb : s.bw.fired = true) :
    s.captureTick = s.completeCapture := by
  simp [State.captureTick, hc, hb]

/-- The acceptance of FIND_GAP leaves the measurement. -/
theorem State.acceptFindGap_measurement (s : State) :
    s.acceptFindGap.mag = s.mag ∧ s.acceptFindGap.std = s.std ∧ s.acceptFindGap.valValid = s.valValid := by
  unfold State.acceptFindGap State.startPass
  split <;> exact ⟨rfl, rfl, rfl⟩

/-- In an idle tick only the acceptance of READ_VALUE writes a register of the measurement, `val_valid`. -/
theorem State.idleTick_measurement (s : State) (c : CmdCode) :
    (s.idleTick c).mag = s.mag ∧ (s.idleTick c).std = s.std ∧
      (s.idleTick c).valValid = if c = 2#2 then false else s.valValid := by
  rcases s.idleTick_cases c with ⟨h, e⟩ | ⟨h, e⟩ | ⟨_, h, e⟩ <;> rw [e]
  · simp [h, s.acceptFindGap_measurement]
  · simp [h]
  · simp [h]

/-- The writers of `mag`, `std` and `val_valid` in a tick without reset that is not a completion step (R198). -/
theorem step_measurement {s t : State} (hr : s.hostNow.rst = false) (ht : step s = .next t)
    (hn : ¬(s.cap = .settle ∧ s.countdown.bw.fired = true)) :
    t.mag = s.mag ∧ t.std = s.std ∧
      t.valValid = if s.busy = false ∧ s.hostNow.cmd = 2#2 then false else s.valValid := by
  rcases step_cases s t ht with ⟨hr', _⟩ | ⟨_, hi, rfl⟩ | ⟨_, hs, rfl⟩ | ⟨_, _, hc, rfl⟩ | ⟨_, _, hi, _, rfl⟩
  · simp [hr] at hr'
  · obtain ⟨hm, hd, hv⟩ := s.countdown.idleTick_measurement s.hostNow.cmd
    have hb : s.busy = false := by simp [State.busy, hi]
    exact ⟨hm, hd, hv.trans (by simp [hb])⟩
  · obtain ⟨-, -, -, hm, hd, hv, -, -⟩ := (State.searchTick_searchStep (s := s.countdown) hs).captureSide
    have hb : s.busy = true := s.busy_iff.mpr fun hi => hs hi.1
    simp [hm, hd, hv, hb]
  · have hb : s.busy = true := s.busy_iff.mpr fun hi => by simp [hc] at hi
    simp [s.countdown.armedTick_measurement, hb]
  · have hb : s.busy = true := s.busy_iff.mpr fun h => hi h.2
    simp [s.countdown.captureTick_measurement hn, hb]

/-- The tick in which the settle delay ends is the completion step (R181). -/
theorem step_of_settled {s : State} (h : Inv s) (hr : s.hostNow.rst = false) (hc : s.cap = .settle)
    (hb : s.countdown.bw.fired = true) :
    step s = .next s.countdown.completeCapture.latchClock.nextTick := by
  rw [step_of_capture s hr (h.sync_idle (by simp [hc])) (by simp [hc]) (by simp [hc]),
    s.countdown.captureTick_of_settled hc hb]

/-- Settles O46: of the transitions only the completion step writes the measurement, and only it and the acceptance
of READ_VALUE write `val_valid`. -/
theorem measurementIsWrittenByCompletionOnly : Obligations.MeasurementIsWrittenByCompletionOnly := by
  intro s t h hr ht completes accepts
  have hidle : accepts → ¬completes := by
    rintro ⟨hb, -⟩ ⟨hc, -⟩
    simp [State.busy, State.isIdle, hc] at hb
  refine ⟨?_, fun hn => ?_, fun ha => ?_, fun hn ha => ?_⟩
  · rintro ⟨hc, hb⟩
    have hs := h.sync_idle (by simp [hc])
    obtain rfl := Host.Outcome.next.inj (ht.symm.trans (step_of_settled h hr hc hb))
    refine ⟨rfl, rfl, rfl, ?_⟩
    simp [State.busy, State.isIdle, hs]
  · obtain ⟨hm, hd, -⟩ := step_measurement hr ht hn
    exact ⟨hm, hd⟩
  · obtain ⟨-, -, hv⟩ := step_measurement hr ht (hidle ha)
    exact hv.trans (if_pos ha)
  · obtain ⟨-, -, hv⟩ := step_measurement hr ht hn
    exact hv.trans (if_neg ha)

/-! ## The writers of `sync_result` -/

/-- A search writes its result with the return to `S_IDLE`: `ALIGNED` after the pre-positioning sleep, `POWEROFF`
otherwise; and no result as long as it goes on (R138, R145). -/
theorem SearchStep.syncResult {s t : State} (h : SearchStep s t) :
    (t.sync ≠ .idle → t.syncResult = s.syncResult) ∧
    (t.sync = .idle → t.syncResult = if s.sync = .prepos then .aligned else .powerOff) := by
  cases h with
  | exit _ hs =>
    have hne : s.sync ≠ .prepos := by
      intro e
      simp [e, SyncReg.inPass] at hs
    simp [hne]
  | aligned hs => simp [hs]
  | waiting _ _ _ _ r hr =>
    have hne : r ≠ .idle := by rintro rfl; cases hr
    simp [hne]
  | asleep hs => rcases hs with hs | hs <;> simp [hs]
  | misaligned | success | newPass => simp

/-- An idle tick writes `sync_result` at the acceptance of FIND_GAP only. -/
theorem Inv.idleTick_syncResult {s : State} (h : Inv s) (c : CmdCode) :
    (s.idleTick c).syncResult = if c = 1#2 then .noResult else s.syncResult := by
  rcases s.idleTick_cases c with ⟨hc, e⟩ | ⟨hc, e⟩ | ⟨hc, _, e⟩ <;> rw [e]
  · simp [hc, State.acceptFindGap_eq h.one_le_tPowerOff]
  · simp [hc]
  · simp [hc]

/-- Settles O47: the acceptance and the two ends of a search are the transitions that write `sync_result`. -/
theorem syncResultIsWrittenByTheSearchOnly : Obligations.SyncResultIsWrittenByTheSearchOnly := by
  intro s t h hr ht
  rcases step_cases s t ht with ⟨hr', _⟩ | ⟨_, hi, rfl⟩ | ⟨_, hs, rfl⟩ | ⟨_, hs, hc, rfl⟩ | ⟨_, hs, hc, _, rfl⟩
  · simp [hr] at hr'
  · obtain ⟨hs, hc⟩ := s.isIdle_iff.mp hi
    have hresult := h.countdown.idleTick_syncResult s.hostNow.cmd
    exact ⟨fun _ h1 => hresult.trans (if_pos h1), fun _ h1 => hresult.trans (if_neg h1),
      fun hc' => absurd hc hc', fun hs' => absurd hs hs', fun hs' => absurd hs hs'⟩
  · have hb : s.busy = true := s.busy_iff.mpr fun hi => hs hi.1
    obtain ⟨hon, hend⟩ := (State.searchTick_searchStep (s := s.countdown) hs).syncResult
    refine ⟨by simp [hb], by simp [hb], fun hc => absurd (h.sync_idle hc) hs, fun _ => hon, fun _ hi => ?_⟩
    have hend := hend hi
    by_cases hq : s.sync = .prepos <;> simp [hend, hq]
  · have hb : s.busy = true := s.busy_iff.mpr fun hi => by simp [hc] at hi
    obtain ⟨-, hkeep, -⟩ := s.countdown.armedTick_searchSide
    exact ⟨by simp [hb], by simp [hb], fun _ => hkeep, fun hs' => absurd hs hs', fun hs' => absurd hs hs'⟩
  · have hb : s.busy = true := s.busy_iff.mpr fun hi => hc hi.2
    obtain ⟨-, hkeep, -⟩ := s.countdown.captureTick_searchSide
    exact ⟨by simp [hb], by simp [hb], fun _ => hkeep, fun hs' => absurd hs hs', fun hs' => absurd hs hs'⟩

/-! ## The edge at the acceptance -/

/-- Without an edge an armed block stays armed, with the frame as it was (R218). -/
theorem step_of_armed_without_edge {s : State} (hr : s.hostNow.rst = false) (hs : s.sync = .idle)
    (hc : s.cap = .armed) (he : s.fallingEdge = false) :
    ∃ t, step s = .next t ∧ t.cap = .armed ∧ t.raw = s.raw := by
  refine ⟨_, step_of_armed s hr hs hc, ?_⟩
  rcases s.countdown.armedTick_cases with ⟨he', _⟩ | ⟨_, _, e⟩ | ⟨_, _, e⟩
  · simp [he] at he'
  · rw [e]; exact ⟨hc, rfl⟩
  · rw [e]; exact ⟨hc, rfl⟩

/-- Settles O35: the tick of the acceptance latches the low level, and a low clock after a low one is no edge. -/
theorem edgeAtAcceptanceIsNotTaken : Obligations.EdgeAtAcceptanceIsNotTaken := by
  intro s hb hr hcmd hedge
  have hi : s.isIdle = true := by simpa [State.busy] using hb
  have hlow : s.clk = false := by
    simp only [State.fallingEdge, Bool.and_eq_true, Bool.not_eq_true'] at hedge
    exact hedge.2
  have hstep : step s = .next s.countdown.acceptReadValue.latchClock.nextTick := by
    simp [step_of_idle s hr hi, hcmd]
  refine ⟨_, hstep, rfl, rfl, rfl, fun hr' _ => ?_⟩
  refine step_of_armed_without_edge hr' (s.isIdle_iff.mp hi).1 rfl ?_
  have hprev : s.countdown.acceptReadValue.latchClock.nextTick.clkPrev = false := hlow
  rw [State.fallingEdge, hprev, Bool.false_and]

/-! ## The writers of `power` -/

/-- The search ends at its power-off timer, at one of the three places (R138). -/
def State.searchExits (s : State) : Prop :=
  s.sync ≠ .idle ∧ s.po.fired = true ∧ (s.sync.inPass = true ∨ (s.sync = .retry ∧ s.sl.fired = true))

/-- The clock has returned to high after the last cell (R143). -/
def State.searchSucceeds (s : State) : Prop :=
  s.sync = .final ∧ s.po.fired = false ∧ s.al.fired = false ∧ s.clk = true

/-- The armed trigger sees its edge (R215). -/
def State.triggerStarts (s : State) : Prop := s.cap = .armed ∧ s.fallingEdge = true

/-- The armed trigger's power-off timer fires, without an edge (R218). -/
def State.triggerTimesOut (s : State) : Prop := s.cap = .armed ∧ s.fallingEdge = false ∧ s.cpo.fired = true

/-- `p` is the `power` that a tick without reset leaves, by the four writers other than reset (R30); `s` is the state
after the countdown. -/
structure PowerAfter (s : State) (p : PowerState) : Prop where
  exit : s.searchExits → p = .off
  success : s.searchSucceeds → p = .on
  start : s.triggerStarts → p = .on
  timeout : s.triggerTimesOut → p = .off
  otherwise : ¬s.searchExits → ¬s.searchSucceeds → ¬s.triggerStarts → ¬s.triggerTimesOut → p = s.power

theorem State.not_searchExits_of_idle {s : State} (hs : s.sync = .idle) : ¬s.searchExits := fun h => h.1 hs

theorem State.not_searchSucceeds_of_idle {s : State} (hs : s.sync = .idle) : ¬s.searchSucceeds := by
  rintro ⟨hf, -⟩
  simp [hs] at hf

theorem State.not_triggerStarts_of_ne_armed {s : State} (hc : s.cap ≠ .armed) : ¬s.triggerStarts := fun h => hc h.1

theorem State.not_triggerTimesOut_of_ne_armed {s : State} (hc : s.cap ≠ .armed) : ¬s.triggerTimesOut :=
  fun h => hc h.1

/-- With no search in progress and no armed trigger there is no writer. -/
theorem PowerAfter.of_unwritten {s : State} {p : PowerState} (hs : s.sync = .idle) (hc : s.cap ≠ .armed)
    (hp : p = s.power) : PowerAfter s p where
  exit h := absurd h (State.not_searchExits_of_idle hs)
  success h := absurd h (State.not_searchSucceeds_of_idle hs)
  start h := absurd h (State.not_triggerStarts_of_ne_armed hc)
  timeout h := absurd h (State.not_triggerTimesOut_of_ne_armed hc)
  otherwise _ _ _ _ := hp

/-- The power-off exit is the transition of a search whose power-off timer is acted on. -/
theorem SearchStep.power_of_exit {s t : State} (h : SearchStep s t) (hx : s.searchExits) : t.power = .off := by
  obtain ⟨-, hp, hs⟩ := hx
  cases h with
  | exit => rfl
  | misaligned _ hp' | success _ hp' | waiting _ hp' | newPass _ _ hp' => simp [hp] at hp'
  | aligned hq => simp [hq, SyncReg.inPass] at hs
  | asleep hq hl => rcases hq with hq | hq <;> simp [hq, hl, SyncReg.inPass] at hs

/-- The alignment success is the transition of a final wait that ends before its timers. -/
theorem SearchStep.power_of_success {s t : State} (h : SearchStep s t) (hx : s.searchSucceeds) : t.power = .on := by
  obtain ⟨hs, hp, ha, hc⟩ := hx
  cases h with
  | success => rfl
  | exit hp' => simp [hp] at hp'
  | misaligned _ _ ha' => simp [ha] at ha'
  | waiting _ _ _ hn => exact absurd ⟨hs, hc⟩ hn
  | newPass hq | aligned hq | asleep hq => simp [hs] at hq

/-- The other transitions of a search leave `power`. -/
theorem SearchStep.power_otherwise {s t : State} (h : SearchStep s t) (hexit : ¬s.searchExits)
    (hsuccess : ¬s.searchSucceeds) : t.power = s.power := by
  cases h with
  | exit hp hs =>
    refine absurd ⟨?_, hp, hs⟩ hexit
    intro hi
    simp [hi, SyncReg.inPass] at hs
  | success hs hp ha hc => exact absurd ⟨hs, hp, ha, hc⟩ hsuccess
  | misaligned | waiting | newPass | aligned | asleep => rfl

theorem SearchStep.powerAfter {s t : State} (h : SearchStep s t) (hc : s.cap ≠ .armed) : PowerAfter s t.power where
  exit := h.power_of_exit
  success := h.power_of_success
  start hy := absurd hy (State.not_triggerStarts_of_ne_armed hc)
  timeout hy := absurd hy (State.not_triggerTimesOut_of_ne_armed hc)
  otherwise hexit hsuccess _ _ := h.power_otherwise hexit hsuccess

/-- An armed trigger turns `power` on at the edge, off at the timeout, and leaves it otherwise. -/
theorem State.armedTick_powerAfter {s : State} (hs : s.sync = .idle) (hc : s.cap = .armed) :
    PowerAfter s s.armedTick.power where
  exit h := absurd h (State.not_searchExits_of_idle hs)
  success h := absurd h (State.not_searchSucceeds_of_idle hs)
  start := by
    rintro ⟨-, he⟩
    simp [State.armedTick, he]
  timeout := by
    rintro ⟨-, he, hf⟩
    simp [State.armedTick, he, hf]
  otherwise := by
    intro _ _ hstart htimeout
    rcases s.armedTick_cases with ⟨he, _⟩ | ⟨he, hf, _⟩ | ⟨_, _, e⟩
    · exact absurd ⟨hc, he⟩ hstart
    · exact absurd ⟨hc, he, hf⟩ htimeout
    · rw [e]

/-- A command leaves `power`, when the power-off timer it arms is at least 1 tick. -/
theorem Inv.idleTick_power {s : State} (h : Inv s) (c : CmdCode) : (s.idleTick c).power = s.power := by
  rcases s.idleTick_cases c with ⟨_, e⟩ | ⟨_, e⟩ | ⟨_, _, e⟩ <;> rw [e]
  · rw [State.acceptFindGap_eq h.one_le_tPowerOff]
  · rfl

/-- After the trigger a capture leaves `power` (R220). -/
theorem State.captureTick_power (s : State) (hc : s.cap ≠ .armed) : s.captureTick.power = s.power := by
  rcases s.captureTick_cases with ⟨ha, _⟩ | ⟨k, _, e⟩ | ⟨k, _, _, e⟩ | ⟨k, _, _, e⟩ | ⟨_, _, e⟩ | e
  case inl => exact absurd ha hc
  case inr.inr.inr.inl => rcases s.sampleBit_cases k with ⟨_, e'⟩ | ⟨_, e'⟩ <;> rw [e, e']
  all_goals simp [e]

/-- A step without reset writes `power` by the four other writers only. -/
theorem step_powerAfter {s t : State} (h : Inv s) (hr : s.hostNow.rst = false) (ht : step s = .next t) :
    PowerAfter s.countdown t.power := by
  rcases step_cases s t ht with ⟨hr', _⟩ | ⟨_, hi, rfl⟩ | ⟨_, hs, rfl⟩ | ⟨_, hs, hc, rfl⟩ | ⟨_, hs, hc, ha, rfl⟩
  · simp [hr] at hr'
  · obtain ⟨hs, hc⟩ := s.isIdle_iff.mp hi
    exact .of_unwritten hs (by simp [hc]) (h.countdown.idleTick_power s.hostNow.cmd)
  · exact (State.searchTick_searchStep (s := s.countdown) hs).powerAfter (by simp [h.cap_idle hs])
  · exact State.armedTick_powerAfter (s := s.countdown) hs hc
  · exact .of_unwritten hs ha (s.countdown.captureTick_power ha)

/-- A reset tick turns `power` off. -/
theorem step_power_of_rst {s t : State} (hr : s.hostNow.rst = true) (ht : step s = .next t) : t.power = .off := by
  obtain rfl := Host.Outcome.next.inj (ht.symm.trans (step_of_rst s hr))
  rfl

theorem State.not_searchExits_and_searchSucceeds (s : State) : ¬(s.searchExits ∧ s.searchSucceeds) := by
  rintro ⟨⟨-, hp, -⟩, -, hp', -⟩
  simp [hp] at hp'

theorem State.not_triggerStarts_and_triggerTimesOut (s : State) : ¬(s.triggerStarts ∧ s.triggerTimesOut) := by
  rintro ⟨⟨-, he⟩, -, he', -⟩
  simp [he] at he'

/-- A search and an armed trigger are not in progress together (R29). -/
theorem Inv.not_search_and_trigger {s : State} (h : Inv s) :
    ¬((s.searchExits ∨ s.searchSucceeds) ∧ (s.triggerStarts ∨ s.triggerTimesOut)) := by
  rintro ⟨hx, hy⟩
  have hc : s.cap = .armed := by rcases hy with hy | hy <;> exact hy.1
  have hs : s.sync = .idle := h.sync_idle (by simp [hc])
  exact hx.elim (State.not_searchExits_of_idle hs) (State.not_searchSucceeds_of_idle hs)

/-! ## No transition reads `power` -/

/-- The same state with another `power`. -/
def State.withPower (s : State) (p : PowerState) : State := { s with power := p }

@[simp] theorem State.withPower_sync (s : State) (p : PowerState) : (s.withPower p).sync = s.sync := rfl
@[simp] theorem State.withPower_cap (s : State) (p : PowerState) : (s.withPower p).cap = s.cap := rfl

/-- A transition that does not read `power`: from a state with another `power` it gives the same state but for
`power`. -/
def PowerBlind (f : State → State) : Prop := ∀ s p q, (f (s.withPower p)).withPower q = (f s).withPower q

/-- A transition that carries `power` along, or overwrites it, does not read it. -/
theorem PowerBlind.id : PowerBlind fun s => s := fun _ _ _ => rfl

/-- A choice by a condition that does not look at `power` does not read it. -/
theorem PowerBlind.ite {c : State → Prop} [∀ s, Decidable (c s)] {f g : State → State}
    (hc : ∀ s p, c (s.withPower p) = c s) (hf : PowerBlind f) (hg : PowerBlind g) :
    PowerBlind fun s => if c s then f s else g s := by
  intro s p q
  by_cases h : c s
  · simpa [hc, h] using hf s p q
  · simpa [hc, h] using hg s p q

/-- What a blind transition gives from a state with another `power`. -/
theorem PowerBlind.exists_withPower {f : State → State} (hf : PowerBlind f) (s : State) (p : PowerState) :
    ∃ q, f (s.withPower p) = (f s).withPower q :=
  ⟨(f (s.withPower p)).power, hf s p _⟩

theorem powerBlind_startPass : PowerBlind State.startPass :=
  .ite (fun _ _ => rfl) (fun _ _ _ => rfl) (fun _ _ _ => rfl)

theorem powerBlind_acceptFindGap : PowerBlind State.acceptFindGap := fun s =>
  powerBlind_startPass { s with syncResult := .noResult, po := .running s.params.tPowerOff }

theorem powerBlind_syncWaitHigh : PowerBlind State.syncWaitHigh := by
  refine .ite (fun _ _ => rfl) (fun s p q => ?_) .id
  simp only [State.withPower_sync]
  cases s.sync <;> rfl

theorem powerBlind_syncWaitLow : PowerBlind State.syncWaitLow := by
  refine .ite (fun _ _ => rfl) .id fun s p q => ?_
  simp only [State.withPower_sync]
  cases s.sync <;> rfl

theorem PowerBlind.passTick {w : State → State} (hw : PowerBlind w) : PowerBlind fun s => s.passTick (w s) :=
  .ite (fun _ _ => rfl) (fun _ _ _ => rfl) (.ite (fun _ _ => rfl) (fun _ _ _ => rfl) hw)

theorem powerBlind_searchTick : PowerBlind State.searchTick := by
  have hretry : PowerBlind fun s => if s.sl.fired then State.startPass { s with sl := .stopped } else s :=
    .ite (fun _ _ => rfl) (fun s => powerBlind_startPass { s with sl := .stopped }) .id
  have hprepos : PowerBlind fun s => if s.sl.fired then s.completeSearch else s :=
    .ite (fun _ _ => rfl) (fun _ _ _ => rfl) .id
  intro s p q
  simp only [State.searchTick, State.withPower_sync]
  cases s.sync with
  | idle => rfl
  | passHi | final => exact powerBlind_syncWaitHigh.passTick s p q
  | passLo => exact powerBlind_syncWaitLow.passTick s p q
  | retry => exact hretry s p q
  | prepos => exact hprepos s p q

theorem powerBlind_armedTick : PowerBlind State.armedTick :=
  .ite (fun _ _ => rfl) (fun _ _ _ => rfl) (.ite (fun _ _ => rfl) (fun _ _ _ => rfl) .id)

theorem powerBlind_sampleBit (k : Fin 24) : PowerBlind fun s => s.sampleBit k := by
  intro s p q
  unfold State.sampleBit
  split <;> rfl

theorem powerBlind_capWaitHigh : PowerBlind State.capWaitHigh := by
  refine .ite (fun _ _ => rfl) (fun s p q => ?_) .id
  simp only [State.withPower_cap]
  cases s.cap <;> rfl

theorem powerBlind_capWaitLow : PowerBlind State.capWaitLow := by
  refine .ite (fun _ _ => rfl) .id fun s p q => ?_
  simp only [State.withPower_cap]
  cases s.cap with
  | waitLo k => exact powerBlind_sampleBit k s p q
  | idle | armed | enter | waitHi | settle => rfl

theorem powerBlind_captureTick : PowerBlind State.captureTick := by
  have harmed : PowerBlind fun s => if s.fallingEdge then s.captureStart else s :=
    .ite (fun _ _ => rfl) (fun _ _ _ => rfl) .id
  have hsettle : PowerBlind fun s => if s.bw.fired then s.completeCapture else s :=
    .ite (fun _ _ => rfl) (fun _ _ _ => rfl) .id
  intro s p q
  simp only [State.captureTick, State.withPower_cap]
  cases s.cap with
  | idle | enter => rfl
  | armed => exact harmed s p q
  | waitHi => exact powerBlind_capWaitHigh s p q
  | waitLo => exact powerBlind_capWaitLow s p q
  | settle => exact hsettle s p q

theorem powerBlind_idleTick (c : CmdCode) : PowerBlind fun s => s.idleTick c :=
  .ite (fun _ _ => rfl) powerBlind_acceptFindGap (.ite (fun _ _ => rfl) (fun _ _ _ => rfl) .id)

/-- A tick whose transition does not read `power` does not read it either: the countdown and the end of the tick
carry it along. -/
theorem PowerBlind.tick {f : State → State} (hf : PowerBlind f) (s : State) (p : PowerState) :
    ∃ q, (f (s.withPower p).countdown).latchClock.nextTick = (f s.countdown).latchClock.nextTick.withPower q := by
  obtain ⟨q, hq⟩ := hf.exists_withPower s.countdown p
  exact ⟨q, congrArg (fun t => t.latchClock.nextTick) hq⟩

/-- A step does not read `power`. -/
theorem step_withPower (s : State) (p : PowerState) :
    ∃ t q, step s = .next t ∧ step (s.withPower p) = .next (t.withPower q) := by
  obtain ⟨t, ht⟩ := step_total s
  refine ⟨t, ?_⟩
  rcases step_cases s t ht with ⟨hr, rfl⟩ | ⟨hr, hi, rfl⟩ | ⟨hr, hs, rfl⟩ | ⟨hr, hs, hc, rfl⟩ |
    ⟨hr, hs, hi, ha, rfl⟩
  · exact ⟨.off, ht, step_of_rst (s.withPower p) hr⟩
  · obtain ⟨q, hq⟩ := (powerBlind_idleTick s.hostNow.cmd).tick s p
    exact ⟨q, ht, (step_of_idle (s.withPower p) hr hi).trans (congrArg _ hq)⟩
  · obtain ⟨q, hq⟩ := powerBlind_searchTick.tick s p
    exact ⟨q, ht, (step_of_search (s.withPower p) hr hs).trans (congrArg _ hq)⟩
  · obtain ⟨q, hq⟩ := powerBlind_armedTick.tick s p
    exact ⟨q, ht, (step_of_armed (s.withPower p) hr hs hc).trans (congrArg _ hq)⟩
  · obtain ⟨q, hq⟩ := powerBlind_captureTick.tick s p
    exact ⟨q, ht, (step_of_capture (s.withPower p) hr hs hi ha).trans (congrArg _ hq)⟩

/-- Settles O45: the five writers one by one, for each kind of tick, and a step that does not read `power`. -/
theorem powerHasFiveWritersAndNoReader : Obligations.PowerHasFiveWritersAndNoReader := by
  refine ⟨fun s t h ht => ?_, step_withPower, fun s => ?_⟩
  · have hafter (hr : s.hostNow.rst ≠ true) : PowerAfter s.countdown t.power :=
      step_powerAfter h (Bool.eq_false_iff.mpr hr) ht
    exact ⟨fun hr => step_power_of_rst hr ht, fun hr => (hafter hr).exit, fun hr => (hafter hr).success,
      fun hr => (hafter hr).start, fun hr => (hafter hr).timeout, fun hr => (hafter hr).otherwise,
      s.countdown.not_searchExits_and_searchSucceeds, s.countdown.not_triggerStarts_and_triggerTimesOut,
      h.countdown.not_search_and_trigger⟩
  · constructor <;> intro hp <;> simp [State.outputs, PowerState.code, hp]

end Sys2Proof.Machine

/-! What stands in place of a memory (spec/20_memory.md): the results that stand when `busy` falls
(R72), the ticks in which the data line counts (R61), and the reads of the lines (R67). -/

namespace Sys2Proof.Machine

/-! ## The end of an operation -/

/-- A capture in progress goes on unless its tick is the completion step (R170, R181). -/
theorem State.captureTick_cap_ne_idle (s : State) (hc : s.cap ≠ .idle)
    (hn : ¬(s.cap = .settle ∧ s.bw.fired = true)) : s.captureTick.cap ≠ .idle := by
  rcases s.captureTick_cases with ⟨_, _, e⟩ | ⟨k, _, e⟩ | ⟨k, _, _, e⟩ | ⟨k, _, _, e⟩ | ⟨hs, hb, _⟩ | e
  case inr.inr.inr.inl => rcases s.sampleBit_cases k with ⟨_, e'⟩ | ⟨_, e'⟩ <;> simp [e, e']
  case inr.inr.inr.inr.inl => exact absurd ⟨hs, hb⟩ hn
  case inr.inr.inr.inr.inr => rwa [e]
  all_goals simp [e]

/-- An armed trigger leaves a reading in progress, edge or not (R215, R218). -/
theorem State.armedTick_cap_ne_idle (s : State) (hc : s.cap = .armed) : s.armedTick.cap ≠ .idle := by
  rcases s.armedTick_cases with ⟨_, e⟩ | ⟨_, _, e⟩ | ⟨_, _, e⟩ <;> simp [e, hc]

/-- Without a reset the completion step is the only tick that ends a reading (R221). -/
theorem step_cap_ne_idle {s t : State} (h : Inv s) (hr : s.hostNow.rst = false) (hc : s.cap ≠ .idle)
    (ht : step s = .next t) (hn : ¬(s.cap = .settle ∧ s.countdown.bw.fired = true)) : t.cap ≠ .idle := by
  rcases step_cases s t ht with ⟨hr', _⟩ | ⟨_, hi, _⟩ | ⟨_, hs, _⟩ | ⟨_, _, ha, rfl⟩ | ⟨_, _, _, _, rfl⟩
  · simp [hr] at hr'
  · exact absurd (s.isIdle_iff.mp hi).2 hc
  · exact absurd (h.cap_idle hs) hc
  · exact s.countdown.armedTick_cap_ne_idle ha
  · exact s.countdown.captureTick_cap_ne_idle hc hn

/-- Settles O48: a search ends with its result, by O47; a reading ends in its completion step, which writes the
measurement by O46. -/
theorem resultsStandWhenBusyFalls : Obligations.ResultsStandWhenBusyFalls := by
  intro s t h hr hb ht hidle
  obtain ⟨hts, htc⟩ : t.sync = .idle ∧ t.cap = .idle := t.isIdle_iff.mp (by simpa [State.busy] using hidle)
  by_cases hs : s.sync = .idle
  · have hc : s.cap ≠ .idle := fun hc => s.busy_iff.mp hb ⟨hs, hc⟩
    have hdone : s.cap = .settle ∧ s.countdown.bw.fired = true := by
      by_contra hn
      exact step_cap_ne_idle h hr hc ht hn htc
    obtain ⟨hwritten, -⟩ := measurementIsWrittenByCompletionOnly s t h hr ht
    obtain ⟨hvalid, hstd, hmag, -⟩ := hwritten hdone
    exact .inr ⟨hdone.1, hvalid, hmag, hstd⟩
  · obtain ⟨-, -, -, -, hresult⟩ := syncResultIsWrittenByTheSearchOnly s t h hr ht
    obtain ⟨haligned, hpoweroff⟩ := hresult hs hts
    refine .inl ⟨hs, ?_⟩
    by_cases hq : s.sync = .prepos
    · exact .inl ⟨hq, haligned.mpr hq⟩
    · exact .inr ⟨hq, hpoweroff.mpr hq⟩

/-! ## Another level on the data line -/

/-- The same state with the level `d` on the data line in this tick. -/
def State.presentData (s : State) (d : Level) : State :=
  { s with lines := Feed.listing [⟨⟨s.clk, d⟩, 1⟩] s.linesNext }

@[simp] theorem State.presentData_sync (s : State) (d : Level) : (s.presentData d).sync = s.sync := rfl
@[simp] theorem State.presentData_cap (s : State) (d : Level) : (s.presentData d).cap = s.cap := rfl
@[simp] theorem State.presentData_bw (s : State) (d : Level) : (s.presentData d).bw = s.bw := rfl
@[simp] theorem State.presentData_clk (s : State) (d : Level) : (s.presentData d).clk = s.clk := rfl
@[simp] theorem State.presentData_fallingEdge (s : State) (d : Level) :
    (s.presentData d).fallingEdge = s.fallingEdge := rfl

/-- Another level on the data line passes through a choice that does not look at it. -/
@[simp] theorem State.presentData_ite (c : Prop) [Decidable c] (s t : State) (d : Level) :
    (if c then s else t).presentData d = if c then s.presentData d else t.presentData d :=
  apply_ite (State.presentData · d) c s t

/-- A tick whose transition carries the level along gives the same next state for both levels: the next tick begins
with the levels after this one. -/
theorem State.tick_presentData {f : State → State} {s : State} {d : Level}
    (h : f (s.presentData d) = (f s).presentData d) :
    (f (s.presentData d)).latchClock.nextTick = (f s).latchClock.nextTick :=
  congrArg (fun t => t.latchClock.nextTick) h

/-! ### The search and the commands, which do not read the data line (R147) -/

theorem State.presentData_startPass (s : State) (d : Level) :
    (s.presentData d).startPass = s.startPass.presentData d := by
  simp only [State.startPass, State.presentData_ite]
  rfl

theorem State.presentData_acceptFindGap (s : State) (d : Level) :
    (s.presentData d).acceptFindGap = s.acceptFindGap.presentData d :=
  State.presentData_startPass { s with syncResult := .noResult, po := .running s.params.tPowerOff } d

theorem State.presentData_idleTick (s : State) (c : CmdCode) (d : Level) :
    (s.presentData d).idleTick c = (s.idleTick c).presentData d := by
  simp only [State.idleTick, State.presentData_ite, State.presentData_acceptFindGap]
  rfl

theorem State.presentData_syncWaitHigh (s : State) (d : Level) :
    (s.presentData d).syncWaitHigh = s.syncWaitHigh.presentData d := by
  simp only [State.syncWaitHigh, State.presentData_ite, State.presentData_clk, State.presentData_sync]
  cases s.sync <;> rfl

theorem State.presentData_syncWaitLow (s : State) (d : Level) :
    (s.presentData d).syncWaitLow = s.syncWaitLow.presentData d := by
  simp only [State.syncWaitLow, State.presentData_ite, State.presentData_clk, State.presentData_sync]
  cases s.sync <;> rfl

theorem State.presentData_passTick (s w : State) (d : Level) :
    (s.presentData d).passTick (w.presentData d) = (s.passTick w).presentData d := by
  simp only [State.passTick, State.presentData_ite]
  rfl

theorem State.presentData_searchTick (s : State) (d : Level) :
    (s.presentData d).searchTick = s.searchTick.presentData d := by
  simp only [State.searchTick, State.presentData_sync, State.presentData_syncWaitHigh,
    State.presentData_syncWaitLow, State.presentData_passTick]
  cases s.sync with
  | idle | passHi | passLo | final => rfl
  | retry =>
    simp only [State.presentData_ite, ← State.presentData_startPass]
    rfl
  | prepos =>
    simp only [State.presentData_ite]
    rfl

/-! ### The reading, off the ticks that sample (R61, R111) -/

theorem State.samplesData_of_armed {s : State} (hs : s.sync = .idle) (hc : s.cap = .armed) :
    s.samplesData = s.fallingEdge := by
  simp [State.samplesData, hs, hc]

theorem State.samplesData_of_waitLo {s : State} {k : Fin 24} (hs : s.sync = .idle) (hc : s.cap = .waitLo k) :
    s.samplesData = !s.clk := by
  simp [State.samplesData, hs, hc]

theorem State.samplesData_of_settle {s : State} (hs : s.sync = .idle) (hc : s.cap = .settle) :
    s.samplesData = s.bw.fired := by
  simp [State.samplesData, hs, hc]

/-- An armed trigger reads the data line at the edge only (R215). -/
theorem State.presentData_armedTick {s : State} (he : s.fallingEdge = false) (d : Level) :
    (s.presentData d).armedTick = s.armedTick.presentData d := by
  simp only [State.armedTick, State.presentData_fallingEdge, he, State.presentData_ite]
  rfl

/-- A capture reads the data line at the edge, in the tick that ends a WAIT_LOW, and in the completion step only
(R170, R174, R180). -/
theorem State.presentData_captureTick {s : State} (hs : s.sync = .idle) (hn : s.samplesData = false) (d : Level) :
    (s.presentData d).captureTick = s.captureTick.presentData d := by
  simp only [State.captureTick, State.presentData_cap]
  cases hc : s.cap with
  | idle | enter => rfl
  | armed =>
    have he : s.fallingEdge = false := (State.samplesData_of_armed hs hc).symm.trans hn
    simp [he]
  | waitHi k =>
    simp only [State.capWaitHigh, State.presentData_ite, State.presentData_clk, State.presentData_cap, hc]
    rfl
  | waitLo k =>
    have hclk : s.clk = true := by simpa [State.samplesData_of_waitLo hs hc] using hn
    simp [State.capWaitLow, hclk]
  | settle =>
    have hb : s.bw.fired = false := (State.samplesData_of_settle hs hc).symm.trans hn
    simp [hb]

/-- A step gives the same next state for both levels of the data line, if its tick is not one that samples it. -/
theorem step_presentData {s : State} {d : Level} (hn : s.countdown.samplesData = false) :
    step (s.presentData d) = step s := by
  obtain ⟨t, ht⟩ := step_total s
  rw [ht]
  rcases step_cases s t ht with ⟨hr, rfl⟩ | ⟨hr, hi, rfl⟩ | ⟨hr, hs, rfl⟩ | ⟨hr, hs, hc, rfl⟩ |
    ⟨hr, hs, hi, ha, rfl⟩
  · exact step_of_rst (s.presentData d) hr
  · refine (step_of_idle (s.presentData d) hr hi).trans (congrArg _ ?_)
    exact State.tick_presentData (f := (State.idleTick · s.hostNow.cmd))
      (s.countdown.presentData_idleTick s.hostNow.cmd d)
  · refine (step_of_search (s.presentData d) hr hs).trans (congrArg _ ?_)
    exact State.tick_presentData (s.countdown.presentData_searchTick d)
  · refine (step_of_armed (s.presentData d) hr hs hc).trans (congrArg _ ?_)
    have he : s.countdown.fallingEdge = false := (State.samplesData_of_armed (s := s.countdown) hs hc).symm.trans hn
    exact State.tick_presentData (State.presentData_armedTick he d)
  · refine (step_of_capture (s.presentData d) hr hs hi ha).trans (congrArg _ ?_)
    exact State.tick_presentData (State.presentData_captureTick (s := s.countdown) hs hn d)

/-- Settles O49: no transition but those of the sampling ticks reads the level, and the end of the tick drops it. -/
theorem dataLineCountsOnlyAtSampleTicks : Obligations.DataLineCountsOnlyAtSampleTicks :=
  fun _ _ hn => (step_presentData hn).symm

/-! ## The reads of the lines -/

/-- Settles O39: the three laws of `exec` for these operations. -/
theorem lineReadsHaveNoSideEffect : Obligations.LineReadsHaveNoSideEffect :=
  fun s => ⟨exec_readClock s, exec_readData s, fun line level => exec_writeLine line level s⟩

end Sys2Proof.Machine

/-! The encodings (spec/30_encoding.md): decoder and encoder, the command codes, and the commands that the host
presents. -/

namespace Sys2Proof

/-! ## The decoder at its sites (R80, R93) -/

theorem decodeAt_cmdPort (w : Nat) :
    decodeAt .cmdPort w = if 2 ^ 2 ≤ w then .error .tooWide else .ok (decodeCmd (field w 0 2)) := rfl

theorem decodeAt_arithmetic (w : Nat) :
    decodeAt .arithmetic w = if 2 ^ 18 ≤ w then .error .tooWide
      else .ok (.decode (field w 2 16) (w.testBit 1) (w.testBit 0)) := rfl

theorem decodeAt_serialLine (w : Nat) :
    decodeAt .serialLine w = if 2 ^ 25 ≤ w then .error .tooWide
      else .ok (.frame24 (field w 0 24) (w.testBit 24)) := rfl

/-- A DECODE word is accumulator, sign and flag, from the left. -/
theorem fields_decodeWord (acc : Half) (neg inch : Bool) :
    field (encode (.decode acc neg inch)).bits 2 16 = acc ∧ (encode (.decode acc neg inch)).bits.testBit 1 = neg ∧
      (encode (.decode acc neg inch)).bits.testBit 0 = inch := by
  simp only [encode]
  refine ⟨?_, ?_, ?_⟩
  · apply BitVec.eq_of_toNat_eq
    have hdiv : (4 * acc.toNat + 2 * neg.toNat + inch.toNat) / 2 ^ 2 = acc.toNat := by
      have hn := Bool.toNat_le neg
      have hi := Bool.toNat_le inch
      omega
    rw [field, BitVec.toNat_ofNat, Nat.shiftRight_eq_div_pow, hdiv, Nat.mod_eq_of_lt acc.isLt]
  · cases neg <;> cases inch <;> simp [Nat.testBit_eq_decide_div_mod_eq] <;> omega
  · cases neg <;> cases inch <;> simp <;> omega

/-- A FRAME24 word is the flag over the frame. -/
theorem fields_frameWord (bits : RawFrame) (flag : Level) :
    field (encode (.frame24 bits flag)).bits 0 24 = bits ∧ (encode (.frame24 bits flag)).bits.testBit 24 = flag := by
  simp only [encode]
  have hb := bits.isLt
  constructor
  · apply BitVec.eq_of_toNat_eq
    rw [field, BitVec.toNat_ofNat, Nat.shiftRight_zero, Nat.add_mul_mod_self_left, Nat.mod_eq_of_lt hb]
  · cases flag <;> simp [Nat.testBit_eq_decide_div_mod_eq] <;> omega

theorem decode_encode_decode (acc : Half) (neg inch : Bool) :
    (encode (.decode acc neg inch)).decode = .ok (.decode acc neg inch) := by
  have hfits : ¬ 2 ^ 18 ≤ (encode (.decode acc neg inch)).bits :=
    Nat.not_le.mpr (Laws.EncodeFits.decode acc neg inch)
  obtain ⟨hacc, hneg, hinch⟩ := fields_decodeWord acc neg inch
  refine (decodeAt_arithmetic _).trans ?_
  rw [if_neg hfits, hacc, hneg, hinch]

theorem decode_encode_frame24 (bits : RawFrame) (flag : Level) :
    (encode (.frame24 bits flag)).decode = .ok (.frame24 bits flag) := by
  have hfits : ¬ 2 ^ 25 ≤ (encode (.frame24 bits flag)).bits :=
    Nat.not_le.mpr (Laws.EncodeFits.frame24 bits flag)
  obtain ⟨hbits, hflag⟩ := fields_frameWord bits flag
  refine (decodeAt_serialLine _).trans ?_
  rw [if_neg hfits, hbits, hflag]

/-- Settles O51: the words of the operations without a wide operand are read off one by one; DECODE's and FRAME24's fit
their sites, and their fields are the operands. -/
theorem decodeOfEncodeIsTheOperation : Obligations.DecodeOfEncodeIsTheOperation := by
  intro i _
  cases i with
  | nop | findGap | readValue | reserved11 | rst | isPowered | readClock | readData | waitHigh | waitLow
  | fallingEdge | capture => rfl
  | writeLine line level => cases line <;> cases level <;> rfl
  | decode acc neg inch => exact decode_encode_decode acc neg inch
  | frame24 bits flag => exact decode_encode_frame24 bits flag

/-- Settles O52: each word is read at its site. -/
theorem specWordsDecodeToTheirOperations : Obligations.SpecWordsDecodeToTheirOperations := by
  unfold Obligations.SpecWordsDecodeToTheirOperations
  decide

/-- Settles O53: the four codes, one by one. -/
theorem commandCodesNameDistinctOperations : Obligations.CommandCodesNameDistinctOperations := by
  unfold Obligations.CommandCodesNameDistinctOperations
  decide

end Sys2Proof

namespace Sys2Proof.Machine

/-! ## The commands at the `cmd` port (R98, R211) -/

theorem Timer.countdown_of_stopped {t : Timer} (h : t = .stopped) : t.countdown = t := by
  rw [h]
  rfl

/-- An idle block has no timer running, so the countdown of an idle tick changes nothing (R53). -/
theorem Inv.countdown_of_idle {s : State} (h : Inv s) (hi : s.isIdle = true) : s.countdown = s := by
  obtain ⟨hs, hc⟩ := s.isIdle_iff.mp hi
  have hpo : s.po = .stopped := h.poElse (by simp [hs, SyncReg.inPass]) (by simp [hs])
  have hal : s.al = .stopped := h.alElse (by simp [hs, SyncReg.inPass])
  have hsl : s.sl = .stopped := h.slElse (by simp [hs]) (by simp [hs])
  have hcpo : s.cpo = .stopped := h.cpoElse (by simp [hc])
  have hbw : s.bw = .stopped := h.bwElse (by simp [hc])
  simp only [State.countdown, Timer.countdown_of_stopped hpo, Timer.countdown_of_stopped hal,
    Timer.countdown_of_stopped hsl, Timer.countdown_of_stopped hcpo, Timer.countdown_of_stopped hbw]

/-- Settles O6: neither code is that of an operation that `step_of_idle` accepts, and no timer runs. -/
theorem nopAndReservedCodeChangeOnlyClkPrev : Obligations.NopAndReservedCodeChangeOnlyClkPrev := by
  refine ⟨fun s => ⟨exec_nop s, exec_reserved11 s⟩, fun s h hb hr hcmd => ?_⟩
  have hi : s.isIdle = true := by simpa [State.busy] using hb
  have hnone : s.hostNow.cmd ≠ 1#2 ∧ s.hostNow.cmd ≠ 2#2 := by rcases hcmd with e | e <;> simp [e]
  rw [step_of_idle s hr hi, if_neg hnone.1, if_neg hnone.2, h.countdown_of_idle hi]
  rfl

/-- A table word of up to 8 bits is the operation of its command code. -/
theorem decodeTableWord_of_command {w : Nat} {i : Instr} (h : decodeTableWord 8 w = some i) :
    decodeCmd (field w 0 2) = i := by
  have h8 : decodeTableWord 8 w = (decodeAt .cmdPort w).toOption := rfl
  rw [h8, decodeAt_cmdPort] at h
  split at h
  · cases h
  · exact Option.some.inj h

/-- The block to which a command is presented runs it (R211). -/
theorem State.presentCommand_operation (s : State) (c : CmdCode) : (s.presentCommand c).operation = decodeCmd c :=
  State.operation_of_host _ (.inr rfl)

/-- Settles O54: the operation of the tick is the presented code's, and the step is that operation by R51. -/
theorem presentedCommandIsRunByTheNextStep : Obligations.PresentedCommandIsRunByTheNextStep := by
  intro s w i h
  obtain ⟨t, ht, hstep⟩ := step_eq_operation (s.presentCommand (field w 0 2))
  rw [State.presentCommand_operation, decodeTableWord_of_command h] at ht
  exact ⟨t, ht, hstep⟩

end Sys2Proof.Machine

/-! Runs, tick by tick: what every run keeps, what the environment presents along it, and how the facts about single
ticks are put together (spec/10_state.md R51). -/

namespace Sys2Proof.Machine

/-! ## The environment along a run -/

/-- The feed `n` ticks from now. -/
def Feed.skip {α : Type} (choice : Nat → Nat → α) : Nat → Feed α → Feed α
  | 0, f => f
  | n + 1, f => Feed.skip choice n (f.pop choice).2

theorem Feed.nth_skip {α : Type} (choice : Nat → Nat → α) (f : Feed α) (n m : Nat) :
    (f.skip choice n).nth choice m = f.nth choice (n + m) := by
  induction n generalizing f with
  | zero => rw [Nat.zero_add]; rfl
  | succ n ih => rw [Nat.add_right_comm, Feed.nth_succ, ← ih]; rfl

/-- Listed runs, all with a tick at least, are gone after their ticks. -/
theorem Feed.skip_listing {α : Type} (choice : Nat → Nat → α) (runs : List (Run α)) (later : Feed α)
    (h : ∀ r ∈ runs, 1 ≤ r.ticks) : (Feed.listing runs later).skip choice (ticksOf runs) = later := by
  induction runs with
  | nil => rfl
  | cons r rest ih =>
    obtain ⟨hr, hrest⟩ := List.forall_mem_cons.mp h
    obtain ⟨v, n⟩ := r
    obtain ⟨n, rfl⟩ : ∃ m, n = m + 1 := ⟨n - 1, by simp at hr; omega⟩
    have hrun : ∀ m, (Feed.listing (⟨v, m + 1⟩ :: rest) later).skip choice (m + 1 + ticksOf rest) = later := by
      intro m
      induction m with
      | zero =>
        rw [Nat.zero_add, Nat.add_comm, Feed.skip, Feed.pop_listing_succ]
        exact ih hrest
      | succ m ihm =>
        rw [Nat.add_right_comm, Feed.skip, Feed.pop_listing_succ]
        exact ihm
    exact hrun n

/-- The environment moves on in every tick (R11, R13). -/
theorem step_feeds {s t : State} (h : step s = .next t) : t.host = s.hostNext ∧ t.lines = s.linesNext := by
  obtain ⟨u, -, hu⟩ := step_eq_operation s
  obtain rfl := Host.Outcome.next.inj (h.symm.trans hu)
  exact ⟨rfl, rfl⟩

/-- The durations are constant (R285). -/
theorem step_params {s t : State} (h : step s = .next t) : t.params = s.params := by
  rcases step_cases s t h with ⟨_, rfl⟩ | ⟨_, _, rfl⟩ | ⟨_, _, rfl⟩ | ⟨_, _, _, rfl⟩ | ⟨_, _, _, _, rfl⟩
  · rfl
  · exact (show (s.countdown.idleTick s.hostNow.cmd).params = s.params by
      rcases s.countdown.idleTick_cases s.hostNow.cmd with ⟨_, e⟩ | ⟨_, e⟩ | ⟨_, _, e⟩ <;> simp [e])
  · simp
  · simp
  · simp

/-- After `n` ticks the environment presents what it presents `n` ticks from now, and the durations are the same. -/
theorem After.environment {n : Nat} {s t : State} (h : After n s t) :
    t.host = s.host.skip HostIn.choice n ∧ t.lines = s.lines.skip LineIn.choice n ∧ t.params = s.params := by
  induction n generalizing s with
  | zero => exact (after_zero s t).mp h ▸ ⟨rfl, rfl, rfl⟩
  | succ n ih =>
    obtain ⟨u, hu, hut⟩ := (after_succ n s t).mp h
    obtain ⟨hhost, hlines⟩ := step_feeds hu
    obtain ⟨ihhost, ihlines, ihparams⟩ := ih hut
    exact ⟨by rw [ihhost, hhost]; rfl, by rw [ihlines, hlines]; rfl, by rw [ihparams, step_params hu]⟩

theorem After.hostNow {n : Nat} {s t : State} (h : After n s t) : t.hostNow = s.hostAt n := by
  rw [← Nat.add_zero n, State.hostAt, ← Feed.nth_skip, ← h.environment.1]
  rfl

theorem After.linesNow {n : Nat} {s t : State} (h : After n s t) : t.linesNow = s.linesAt n := by
  rw [← Nat.add_zero n, State.linesAt, ← Feed.nth_skip, ← h.environment.2.1]
  rfl

/-! ## Facts that hold at a tick of a run -/

/-- Some `n` ticks after `s` the state satisfies `p`. -/
def Reaches (s : State) (n : Nat) (p : State → Prop) : Prop := ∃ t, After n s t ∧ p t

theorem Reaches.start {s : State} {p : State → Prop} (h : p s) : Reaches s 0 p := ⟨s, rfl, h⟩

/-- One more tick. -/
theorem Reaches.next {s : State} {n : Nat} {p q : State → Prop} (h : Reaches s n p)
    (hstep : ∀ t, After n s t → p t → ∃ u, step t = .next u ∧ q u) : Reaches s (n + 1) q := by
  obtain ⟨t, ht, hp⟩ := h
  obtain ⟨u, hu, hq⟩ := hstep t ht hp
  exact ⟨u, after_add n 1 s t u ht ⟨u, hu, rfl⟩, hq⟩

/-- What every tick from `n` to `m` keeps. -/
theorem Reaches.hold {s : State} {n m : Nat} {p : State → Prop} (h : Reaches s n p) (hnm : n ≤ m)
    (hstep : ∀ i, n ≤ i → i < m → ∀ t, After i s t → p t → ∃ u, step t = .next u ∧ p u) : Reaches s m p := by
  induction m, hnm using Nat.le_induction with
  | base => exact h
  | succ m hnm ih =>
    exact (ih fun i hi him => hstep i hi (Nat.lt_succ_of_lt him)).next (hstep m hnm (Nat.lt_succ_self m))

/-- A delay of `d` ticks runs down to its last one. -/
theorem Reaches.countdown {s : State} {n d : Nat} {p : Nat → State → Prop} (h : Reaches s n (p (d + 1)))
    (hstep : ∀ i b t, After i s t → p (b + 2) t → ∃ u, step t = .next u ∧ p (b + 1) u) :
    Reaches s (n + d) (p 1) := by
  induction d generalizing n with
  | zero => exact h
  | succ d ih =>
    rw [Nat.add_comm d 1, ← Nat.add_assoc]
    exact ih (h.next fun t ht hp => hstep n d t ht hp)

end Sys2Proof.Machine

/-! The decoding of a frame on the wire (spec/42_frame_decoder.md R170 to R182; spec/70_reset_and_hazards.md R297, R298,
R303): one lemma for each tick of a reading, the cell made of them, and the whole frame. -/

namespace Sys2Proof.Machine

/-! ## The states of a reading -/

/-- Armed after a high clock, with `r` the result of the last search. -/
structure IsArmed (r : SyncResult) (s : State) : Prop where
  sync : s.sync = .idle
  cap : s.cap = .armed
  clkPrev : s.clkPrev = true
  syncResult : s.syncResult = r

/-- In a capture, in the state `c`, with the bits `sampled` so far. -/
structure IsSampling (r : SyncResult) (sampled : RawFrame) (c : CapReg) (s : State) : Prop where
  sync : s.sync = .idle
  cap : s.cap = c
  power : s.power = .on
  raw : s.raw = sampled
  acc : s.acc = frameCount sampled
  syncResult : s.syncResult = r

/-- In the settle delay, with `b` ticks to go. -/
structure IsSettling (r : SyncResult) (sampled : RawFrame) (b : Nat) (s : State) : Prop
    extends IsSampling r sampled .settle s where
  bw : s.bw = .running b

/-- Idle, with the frame `bits` and the flag `flag` read. -/
structure IsRead (r : SyncResult) (bits : RawFrame) (flag : Level) (s : State) : Prop where
  busy : s.busy = false
  valValid : s.valValid = true
  powered : s.powered = true
  raw : s.raw = bits
  acc : s.acc = frameCount bits
  mag : s.mag = decodeMagnitude (frameCount bits) (frameSign bits) flag
  std : s.std = if flag then .inch else .millimeter
  syncResult : s.syncResult = r

/-- The first `k` bits of a frame. -/
def frameUpTo (bits : RawFrame) (k : Nat) : RawFrame := (bits.setWidth k).setWidth 24

theorem frameUpTo_getLsbD (bits : RawFrame) (k j : Nat) :
    (frameUpTo bits k).getLsbD j = (decide (j < k) && bits.getLsbD j) := by
  rw [frameUpTo, BitVec.getLsbD_setWidth, BitVec.getLsbD_setWidth]
  by_cases hj : j < 24
  · simp [hj]
  · simp [hj, BitVec.getLsbD_of_ge bits j (by omega)]

theorem frameUpTo_one (bits : RawFrame) : frameUpTo bits 1 = zext24 (bits.getLsbD 0) := by
  apply BitVec.eq_of_getLsbD_eq
  intro j _
  rw [frameUpTo_getLsbD, zext24_getLsbD]
  rcases j with _ | j <;> simp

theorem frameUpTo_all (bits : RawFrame) : frameUpTo bits 24 = bits := by
  simp [frameUpTo]

/-- The sample of bit `k` makes the first `k` bits the first `k + 1`, in `raw` and in `acc` (R175, R176). -/
theorem frameUpTo_succ (bits : RawFrame) (k : Fin 24) :
    storeBit (frameUpTo bits k) k (bits.getLsbD k) = frameUpTo bits (k + 1) ∧
      foldBit (frameCount (frameUpTo bits k)) k (bits.getLsbD k) = frameCount (frameUpTo bits (k + 1)) := by
  have hraw : storeBit (frameUpTo bits k) k (bits.getLsbD k) = frameUpTo bits (k + 1) := by
    apply BitVec.eq_of_getLsbD_eq
    intro j _
    rw [storeBit_getLsbD, frameUpTo_getLsbD, frameUpTo_getLsbD]
    by_cases hj : j = k
    · simp [hj]
    · simp [hj, show j < k.val ↔ j < k.val + 1 by omega]
  exact ⟨hraw, by rw [← hraw, frameCount_storeBit _ _ _ ((frameUpTo_getLsbD bits k k).trans (by simp))]⟩

/-! ## One tick of a reading -/

section
variable {r : SyncResult} {raw : RawFrame} {k : Fin 24} {s : State}

/-- No edge: an armed block stays armed, and the tick's high level is the next one's `clk_prev` (R218). -/
theorem step_armed_of_high (hr : s.hostNow.rst = false) (hs : s.sync = .idle) (ha : s.cap = .armed)
    (hc : s.clk = true) : ∃ t, step s = .next t ∧ IsArmed s.syncResult t := by
  have he : s.fallingEdge = false := by simp [State.fallingEdge, hc]
  refine ⟨_, step_of_armed s hr hs ha, ?_⟩
  rcases s.countdown.armedTick_cases with ⟨he', _⟩ | ⟨_, _, e⟩ | ⟨_, _, e⟩
  · simp [he] at he'
  · rw [e]; exact ⟨hs, ha, hc, rfl⟩
  · rw [e]; exact ⟨hs, ha, hc, rfl⟩

theorem IsArmed.step_of_high (h : IsArmed r s) (hr : s.hostNow.rst = false) (hc : s.clk = true) :
    ∃ t, step s = .next t ∧ IsArmed r t :=
  h.syncResult ▸ step_armed_of_high hr h.sync h.cap hc

/-- The trigger tick takes bit 0 (R171, R215). -/
theorem IsArmed.step_of_low (h : IsArmed r s) (hr : s.hostNow.rst = false) (hc : s.clk = false) :
    ∃ t, step s = .next t ∧ IsSampling r (zext24 s.data) (.enter 1) t := by
  have he : s.countdown.fallingEdge = true := by simp [State.fallingEdge, h.clkPrev, hc]
  refine ⟨_, step_of_armed s hr h.sync h.cap, ?_⟩
  rw [State.armedTick, if_pos he]
  exact ⟨h.sync, rfl, rfl, rfl, (frameCount_zext24 s.data).symm, h.syncResult⟩

/-- A tick of a capture is a transition of the sampler. -/
theorem IsSampling.step_eq {c : CapReg} (h : IsSampling r raw c s) (hr : s.hostNow.rst = false)
    (hi : c ≠ .idle) (ha : c ≠ .armed) : step s = .next s.countdown.captureTick.latchClock.nextTick :=
  step_of_capture s hr h.sync (h.cap ▸ hi) (h.cap ▸ ha)

/-- The tick between two bits (R172). -/
theorem IsSampling.step_of_enter (h : IsSampling r raw (.enter k) s) (hr : s.hostNow.rst = false) :
    ∃ t, step s = .next t ∧ IsSampling r raw (.waitHi k) t := by
  refine ⟨_, h.step_eq hr nofun nofun, ?_⟩
  simp only [State.captureTick, State.countdown_cap, h.cap]
  exact { h with cap := rfl }

/-- WAIT_HIGH goes on while the clock is low, and ends in the first tick in which it is high (R173). -/
theorem IsSampling.step_of_waitHi (h : IsSampling r raw (.waitHi k) s) (hr : s.hostNow.rst = false) :
    ∃ t, step s = .next t ∧ IsSampling r raw (if s.clk then .waitLo k else .waitHi k) t := by
  refine ⟨_, h.step_eq hr nofun nofun, ?_⟩
  simp only [State.captureTick, State.capWaitHigh, State.countdown_cap, State.countdown_clk, h.cap]
  cases s.clk
  · exact { h with }
  · exact { h with cap := rfl }

/-- WAIT_LOW goes on while the clock is high (R174). -/
theorem IsSampling.step_of_waitLo (h : IsSampling r raw (.waitLo k) s) (hr : s.hostNow.rst = false)
    (hc : s.clk = true) : ∃ t, step s = .next t ∧ IsSampling r raw (.waitLo k) t := by
  refine ⟨_, h.step_eq hr nofun nofun, ?_⟩
  simp only [State.captureTick, State.capWaitLow, State.countdown_cap, State.countdown_clk, h.cap, hc, if_true]
  exact { h with }

/-- The low tick that ends a WAIT_LOW is the sample of bit `k`; after bit 23 the settle delay runs (R174 to R179). -/
theorem IsSampling.step_of_sample {bits : RawFrame} (h : IsSampling r (frameUpTo bits k) (.waitLo k) s)
    (hr : s.hostNow.rst = false) (hc : s.clk = false) (hd : s.data = bits.getLsbD k) :
    ∃ t, step s = .next t ∧ (k ≠ 23 → IsSampling r (frameUpTo bits (k + 1)) (.enter (k + 1)) t) ∧
      (k = 23 → IsSettling r bits s.params.tSettle t) := by
  obtain ⟨hraw, hacc⟩ := frameUpTo_succ bits k
  have hsample : step s = .next (s.countdown.sampleBit k).latchClock.nextTick := by
    rw [h.step_eq hr nofun nofun]
    simp [State.captureTick, State.capWaitLow, h.cap, hc]
  refine ⟨_, hsample, ?_⟩
  rcases s.countdown.sampleBit_cases k with ⟨hk, e⟩ | ⟨rfl, e⟩ <;>
    simp only [State.countdown_data, State.countdown_raw, State.countdown_acc, h.raw, h.acc, hd, hraw, hacc] at e <;>
    rw [e]
  · exact ⟨fun _ => { h with cap := rfl, raw := rfl, acc := rfl }, fun h23 => absurd h23 hk⟩
  · refine ⟨fun h23 => absurd rfl h23, fun _ => ?_⟩
    have hall : frameUpTo bits ((23 : Fin 24) + 1 : Nat) = bits := frameUpTo_all bits
    exact { h with cap := rfl, raw := hall, acc := congrArg frameCount hall, bw := rfl }

/-- The settle delay goes on until its last tick (R179, R180). -/
theorem IsSettling.step_of_wait {b : Nat} (h : IsSettling r raw (b + 2) s) (hr : s.hostNow.rst = false) :
    ∃ t, step s = .next t ∧ IsSettling r raw (b + 1) t := by
  refine ⟨_, h.step_eq hr nofun nofun, ?_⟩
  have hb : s.countdown.bw = .running (b + 1) := by rw [State.countdown_bw, h.bw]; rfl
  have hnf : s.countdown.bw.fired = false := by rw [hb]; rfl
  simp only [State.captureTick, State.countdown_cap, h.cap, hnf]
  exact { h with bw := hb }

/-- Its last tick is the completion step, which takes the flag (R180, R181). -/
theorem IsSettling.step_of_last (h : IsSettling r raw 1 s) (hr : s.hostNow.rst = false) :
    ∃ t, step s = .next t ∧ IsRead r raw s.data t := by
  refine ⟨_, h.step_eq hr nofun nofun, ?_⟩
  have hb : s.countdown.bw.fired = true := by rw [State.countdown_bw, h.bw]; rfl
  rw [s.countdown.captureTick_of_settled h.cap hb]
  exact { busy := by simp [State.busy, State.isIdle, h.sync]
          valValid := rfl
          powered := by simp [State.powered, h.power]
          raw := h.raw
          acc := h.acc
          mag := by simp [h.raw, h.acc]
          std := rfl
          syncResult := h.syncResult }

end

/-! ## A cell, and a frame -/

/-- Between the falling edges at `fall` and `next` the clock is low, then high; the cell lasts at least three ticks
(R297). -/
def CarriesCell (wire : Nat → LineIn) (fall next : Nat) : Prop :=
  fall + 3 ≤ next ∧ ∃ rise, fall < rise ∧ rise < next ∧
    (∀ n, fall < n → n < rise → (wire n).clk = false) ∧ (∀ n, rise ≤ n → n < next → (wire n).clk = true)

/-- The levels `wire` carry a frame that a reading can follow: bit `k` is on the data line at the falling edge
`fall k`, and the flag `tSettle` ticks after the last edge. The other data levels, and the clock after the last edge,
are free (R297, R298). -/
structure CarriesFrame (wire : Nat → LineIn) (fall : Nat → Nat) (tSettle : Nat) (bits : RawFrame)
    (flag : Level) : Prop where
  cell : ∀ k, k < 23 → CarriesCell wire (fall k) (fall (k + 1))
  bit : ∀ k, k < 24 → wire (fall k) = ⟨false, bits.getLsbD k⟩
  flagSlot : (wire (fall 23 + tSettle)).data = flag

section
variable {s : State} {r : SyncResult} (hs : s.noReset)
include hs

theorem State.noReset.after {n : Nat} {t : State} (ht : After n s t) : t.hostNow.rst = false := by
  rw [ht.hostNow]; exact hs n

/-- An armed block waits for the first edge. -/
theorem Reaches.armed_until {n m : Nat} (h : Reaches s n (IsArmed r)) (hnm : n ≤ m)
    (hhigh : ∀ i, n ≤ i → i < m → (s.linesAt i).clk = true) : Reaches s m (IsArmed r) :=
  h.hold hnm fun i hi him _ ht hp => hp.step_of_high (hs.after ht) (by rw [State.clk, ht.linesNow, hhigh i hi him])

/-- A cell leads from the tick after one sample to the tick of the next: at least three ticks are enough for the tick
between the bits, a high one, and the sample (R297). -/
theorem Reaches.cell {raw : RawFrame} {k : Fin 24} {fall next : Nat}
    (h : Reaches s (fall + 1) (IsSampling r raw (.enter k))) (hcell : CarriesCell s.linesAt fall next) :
    Reaches s next (IsSampling r raw (.waitLo k)) := by
  obtain ⟨hthree, rise, hrise, hnext, hlow, hhigh⟩ := hcell
  have hentered : Reaches s (fall + 2) (IsSampling r raw (.waitHi k)) :=
    h.next fun _ ht hp => hp.step_of_enter (hs.after ht)
  have hwait : Reaches s (max rise (fall + 2)) (IsSampling r raw (.waitHi k)) := by
    refine hentered.hold (by omega) fun i hi him t ht hp => ?_
    have hclk : t.clk = false := by rw [State.clk, ht.linesNow, hlow i (by omega) (by omega)]
    simpa [hclk] using hp.step_of_waitHi (hs.after ht)
  have hseen : Reaches s (max rise (fall + 2) + 1) (IsSampling r raw (.waitLo k)) := by
    refine hwait.next fun t ht hp => ?_
    have hclk : t.clk = true := by rw [State.clk, ht.linesNow, hhigh _ (by omega) (by omega)]
    simpa [hclk] using hp.step_of_waitHi (hs.after ht)
  refine hseen.hold (by omega) fun i hi him t ht hp => hp.step_of_waitLo (hs.after ht) ?_
  rw [State.clk, ht.linesNow, hhigh i (by omega) him]

variable {fall : Nat → Nat} {bits : RawFrame} {flag : Level}
  (hw : CarriesFrame s.linesAt fall s.params.tSettle bits flag) (harmed : Reaches s (fall 0) (IsArmed r))
include hw harmed

/-- After the sample of bit `k`, the first `k + 1` bits of the frame are sampled. -/
theorem Reaches.sampled (k : Nat) (hk : k < 23) :
    Reaches s (fall k + 1) (IsSampling r (frameUpTo bits (k + 1)) (.enter ⟨k + 1, by omega⟩)) := by
  induction k with
  | zero =>
    refine harmed.next fun t ht hp => ?_
    have hline : t.linesNow = ⟨false, bits.getLsbD 0⟩ := ht.linesNow.trans (hw.bit 0 (by omega))
    rw [frameUpTo_one, show bits.getLsbD 0 = t.data from (congrArg LineIn.data hline).symm]
    exact hp.step_of_low (hs.after ht) (congrArg LineIn.clk hline)
  | succ k ih =>
    refine ((ih (by omega)).cell hs (hw.cell k (by omega))).next fun t ht hp => ?_
    have hline : t.linesNow = ⟨false, bits.getLsbD (k + 1)⟩ := ht.linesNow.trans (hw.bit (k + 1) (by omega))
    obtain ⟨u, hu, henter, -⟩ :=
      hp.step_of_sample (k := ⟨k + 1, by omega⟩) (hs.after ht) (congrArg LineIn.clk hline) (congrArg LineIn.data hline)
    have hne : (⟨k + 1, by omega⟩ : Fin 24) ≠ 23 := Fin.ne_of_val_ne (by simp; omega)
    have hnext : (⟨k + 1, by omega⟩ + 1 : Fin 24) = ⟨k + 1 + 1, by omega⟩ := Fin.ext (by simp [Fin.val_add]; omega)
    exact ⟨u, hu, hnext ▸ henter hne⟩

/-- A block armed at the first edge of a frame has read it after the flag's tick (R182, R303). -/
theorem Reaches.read (hsettle : 1 ≤ s.params.tSettle) :
    Reaches s (fall 23 + s.params.tSettle + 1) (IsRead r bits flag) := by
  have hlast : Reaches s (fall 23) (IsSampling r (frameUpTo bits 23) (.waitLo 23)) :=
    (Reaches.sampled hs hw harmed 22 (by omega)).cell hs (hw.cell 22 (by omega))
  have hsettling : Reaches s (fall 23 + 1) (IsSettling r bits s.params.tSettle) := by
    refine hlast.next fun t ht hp => ?_
    have hline : t.linesNow = ⟨false, bits.getLsbD 23⟩ := ht.linesNow.trans (hw.bit 23 (by omega))
    obtain ⟨u, hu, -, hset⟩ :=
      hp.step_of_sample (k := 23) (hs.after ht) (congrArg LineIn.clk hline) (congrArg LineIn.data hline)
    exact ⟨u, hu, ht.environment.2.2 ▸ hset rfl⟩
  obtain ⟨d, hd⟩ := Nat.exists_eq_add_of_le' hsettle
  have hend : Reaches s (fall 23 + 1 + d) (IsSettling r bits 1) :=
    Reaches.countdown (hd ▸ hsettling) fun _ _ _ ht hp => hp.step_of_wait (hs.after ht)
  rw [show fall 23 + 1 + d = fall 23 + s.params.tSettle by omega] at hend
  refine hend.next fun t ht hp => ?_
  have hflag : t.data = flag := by rw [State.data, ht.linesNow, hw.flagSlot]
  exact hflag ▸ hp.step_of_last (hs.after ht)

end

end Sys2Proof.Machine

/-! A frame on the wire with cells of any lengths from three ticks on (spec/70_reset_and_hazards.md R297, R298,
R303). -/

namespace Sys2Proof.Machine

/-! ## Runs of one tick -/

theorem ticksOf_map_single {α β : Type} (g : α → β) (l : List α) :
    ticksOf (l.map fun a => (⟨g a, 1⟩ : Run β)) = l.length := by
  induction l with
  | nil => rfl
  | cons a l ih => simp [ih, Nat.add_comm]

theorem tickAt_map_single {α β : Type} (g : α → β) (l : List α) (n : Nat) :
    tickAt (l.map fun a => (⟨g a, 1⟩ : Run β)) n = l[n]?.map g := by
  induction l generalizing n with
  | nil => rfl
  | cons a l ih => cases n <;> simp [tickAt, ih]

/-- A feed presents the runs it lists first. -/
theorem Feed.nth_listing {α : Type} (choice : Nat → Nat → α) {runs : List (Run α)} {n : Nat} {v : α}
    (h : tickAt runs n = some v) (later : Feed α) : (Feed.listing runs later).nth choice n = v := by
  have hn : n < ticksOf runs := by simpa [h] using tickAt_isSome runs n
  apply Feed.nth_of_tickAt
  rw [Feed.listing, List.append_assoc, tickAt_append, if_pos hn, h]

/-! ## Cells -/

theorem Cell.ticksOf_ticks (c : Cell) : ticksOf c.ticks = c.length := by
  simp only [Cell.ticks, Cell.length, ticksOf_append, ticksOf_cons, ticksOf_nil, ticksOf_map_single]
  omega

/-- A cell is low, then high, and low again in its last tick, with its bit. -/
theorem Cell.tickAt_ticks (c : Cell) (n : Nat) (h : n < c.length) :
    ∃ d, tickAt c.ticks n = some ⟨decide (c.lowData.length ≤ n ∧ n + 1 < c.length), d⟩ ∧
      (n + 1 = c.length → d = c.bit) := by
  have hlen : c.length = c.lowData.length + c.highData.length + 2 := rfl
  rw [Cell.ticks, List.append_assoc, tickAt_append, ticksOf_map_single, tickAt_map_single]
  by_cases hlow : n < c.lowData.length
  · refine ⟨c.lowData[n], ?_, by omega⟩
    simp [hlow, Nat.not_le.mpr hlow]
  · rw [if_neg hlow, List.cons_append, tickAt]
    by_cases hfirst : n = c.lowData.length
    · refine ⟨c.highFirst, ?_, by omega⟩
      simp [hfirst, hlen]
    · rw [if_neg (by simp; omega), tickAt_append, ticksOf_map_single, tickAt_map_single]
      by_cases hhigh : n + 1 < c.length
      · refine ⟨c.highData[n - c.lowData.length - 1]'(by omega), ?_, by omega⟩
        have hidx : n - c.lowData.length - 1 < c.highData.length := by omega
        simp [hhigh, hidx, Nat.le_of_not_lt hlow]
      · refine ⟨c.bit, ?_, fun _ => rfl⟩
        rw [if_neg (by simp; omega)]
        simp [tickAt, hhigh]
        omega

/-- The ticks of the first `k` cells. -/
def cellsLength (cells : List Cell) (k : Nat) : Nat := ((cells.take k).map Cell.length).sum

theorem cellsLength_succ (cells : List Cell) (k : Nat) (h : k < cells.length) :
    cellsLength cells (k + 1) = cellsLength cells k + cells[k].length := by
  rw [cellsLength, cellsLength, List.take_succ_eq_append_getElem h, List.map_append, List.sum_append]
  rfl

theorem ticksOf_flatMap_ticks (cells : List Cell) :
    ticksOf (cells.flatMap Cell.ticks) = (cells.map Cell.length).sum := by
  induction cells with
  | nil => rfl
  | cons c cells ih => simp [ih, Cell.ticksOf_ticks]

theorem tickAt_flatMap_ticks (cells : List Cell) (k n : Nat) (h : k < cells.length) (hn : n < cells[k].length) :
    tickAt (cells.flatMap Cell.ticks) (cellsLength cells k + n) = tickAt cells[k].ticks n := by
  induction cells generalizing k with
  | nil => simp at h
  | cons c cells ih =>
    rw [List.flatMap_cons, tickAt_append, Cell.ticksOf_ticks]
    cases k with
    | zero =>
      have hzero : cellsLength (c :: cells) 0 = 0 := rfl
      rw [hzero, Nat.zero_add]
      exact if_pos hn
    | succ k =>
      have hsum : cellsLength (c :: cells) (k + 1) = c.length + cellsLength cells k := by simp [cellsLength]
      rw [hsum, if_neg (by omega), Nat.add_assoc, Nat.add_sub_cancel_left]
      exact ih k (by simpa using h) hn

/-! ## The frame on the wire -/

/-- The ticks of a frame with the cells `cells`: the first edge with bit 0, the cells, the settle delay, the flag. -/
def wireRuns (bit0 flagClk flag : Level) (cells : List Cell) (settle : List LineIn) : List (Run LineIn) :=
  ⟨⟨false, bit0⟩, 1⟩ :: (cells.flatMap Cell.ticks ++ settle.map (fun l => ⟨l, 1⟩) ++ [⟨⟨flagClk, flag⟩, 1⟩])

/-- The bits that the cells carry, after bit 0. -/
def wireBits (bit0 : Level) (cells : List Cell) : RawFrame :=
  BitVec.ofFnLE fun i => (bit0 :: cells.map Cell.bit).getD i false

theorem wireBits_zero (bit0 : Level) (cells : List Cell) : (wireBits bit0 cells).getLsbD 0 = bit0 := by
  rw [wireBits, BitVec.getLsbD_ofFnLE, dif_pos (by omega)]
  rfl

theorem wireBits_succ (bit0 : Level) (cells : List Cell) (j : Nat) (hlen : cells.length = 23)
    (hj : j < cells.length) : (wireBits bit0 cells).getLsbD (j + 1) = cells[j].bit := by
  rw [wireBits, BitVec.getLsbD_ofFnLE, dif_pos (by omega)]
  simp [hj]

section
variable {bit0 flagClk flag : Level} {cells : List Cell} {settle : List LineIn}

theorem ticksOf_wireRuns :
    ticksOf (wireRuns bit0 flagClk flag cells settle) = 1 + (cells.map Cell.length).sum + settle.length + 1 := by
  have hsettle : ticksOf (settle.map fun l => (⟨l, 1⟩ : Run LineIn)) = settle.length := ticksOf_map_single id settle
  simp only [wireRuns, ticksOf_cons, ticksOf_append, ticksOf_flatMap_ticks, hsettle, ticksOf_nil]
  omega

/-- Every run of the frame lasts one tick. -/
theorem one_le_ticks_of_mem_wireRuns (u : Run LineIn) (h : u ∈ wireRuns bit0 flagClk flag cells settle) :
    1 ≤ u.ticks := by
  have hcell : ∀ c : Cell, ∀ u ∈ c.ticks, u.ticks = 1 := by
    intro c u hu
    simp only [Cell.ticks, List.mem_append, List.mem_cons, List.mem_map, List.not_mem_nil, or_false] at hu
    rcases hu with (⟨_, _, rfl⟩ | rfl | ⟨_, _, rfl⟩) | rfl <;> rfl
  simp only [wireRuns, List.mem_append, List.mem_cons, List.mem_flatMap, List.mem_map, List.not_mem_nil,
    or_false] at h
  rcases h with rfl | (⟨c, _, hu⟩ | ⟨_, _, rfl⟩) | rfl
  · rfl
  · exact (hcell c u hu).ge
  · rfl
  · rfl

/-- Tick `n` of cell `k`. -/
theorem tickAt_wireRuns_cell (k n : Nat) (h : k < cells.length) (hn : n < cells[k].length) :
    tickAt (wireRuns bit0 flagClk flag cells settle) (cellsLength cells k + n + 1) = tickAt cells[k].ticks n := by
  have hin := tickAt_flatMap_ticks cells k n h hn
  have hlt : cellsLength cells k + n < ticksOf (cells.flatMap Cell.ticks) := by
    have hsome := tickAt_isSome (cells.flatMap Cell.ticks) (cellsLength cells k + n)
    obtain ⟨d, hd, -⟩ := cells[k].tickAt_ticks n hn
    rw [hin, hd] at hsome
    simpa using hsome
  rw [wireRuns, tickAt, if_neg (by simp), List.append_assoc, tickAt_append, Nat.add_sub_cancel, if_pos hlt, hin]

theorem tickAt_wireRuns_flag :
    tickAt (wireRuns bit0 flagClk flag cells settle) ((cells.map Cell.length).sum + settle.length + 1) =
      some ⟨flagClk, flag⟩ := by
  have hsettle : ticksOf (settle.map fun l => (⟨l, 1⟩ : Run LineIn)) = settle.length := ticksOf_map_single id settle
  rw [wireRuns, tickAt, if_neg (by simp), tickAt_append, ticksOf_append, ticksOf_flatMap_ticks, hsettle,
    if_neg (by simp)]
  simp [tickAt]

theorem carriesFrame_wireRuns (later : Feed LineIn) (hlen : cells.length = 23) (hcells : ∀ c ∈ cells, 3 ≤ c.length) :
    CarriesFrame (fun n => (Feed.listing (wireRuns bit0 flagClk flag cells settle) later).nth LineIn.choice n)
      (cellsLength cells) (settle.length + 1) (wireBits bit0 cells) flag where
  cell k hk := by
    have hk : k < cells.length := hlen.symm ▸ hk
    have hthree := hcells cells[k] (List.getElem_mem hk)
    have hlength : cells[k].length = cells[k].lowData.length + cells[k].highData.length + 2 := rfl
    have hclk : ∀ n, cellsLength cells k < n → n ≤ cellsLength cells k + cells[k].length →
        ((Feed.listing (wireRuns bit0 flagClk flag cells settle) later).nth LineIn.choice n).clk =
          decide (cells[k].lowData.length ≤ n - cellsLength cells k - 1 ∧
            n - cellsLength cells k - 1 + 1 < cells[k].length) := by
      intro n h1 h2
      obtain ⟨m, rfl⟩ : ∃ m, n = cellsLength cells k + m + 1 := ⟨n - cellsLength cells k - 1, by omega⟩
      obtain ⟨d, hd, -⟩ := cells[k].tickAt_ticks m (by omega)
      rw [Feed.nth_listing _ ((tickAt_wireRuns_cell k m hk (by omega)).trans hd)]
      simp [Nat.add_assoc]
    rw [cellsLength_succ cells k hk]
    exact ⟨by omega, cellsLength cells k + cells[k].lowData.length + 1, by omega, by omega,
      fun n h1 h2 => (hclk n (by omega) (by omega)).trans (decide_eq_false (by omega)),
      fun n h1 h2 => (hclk n (by omega) (by omega)).trans (decide_eq_true (by omega))⟩
  bit k hk := by
    cases k with
    | zero => exact (Feed.nth_listing _ (n := 0) rfl later).trans (by rw [wireBits_zero])
    | succ k =>
      have hk : k < cells.length := by omega
      have hthree := hcells cells[k] (List.getElem_mem hk)
      obtain ⟨d, hd, hbit⟩ := cells[k].tickAt_ticks (cells[k].length - 1) (by omega)
      have hat := (tickAt_wireRuns_cell (bit0 := bit0) (flagClk := flagClk) (flag := flag) (settle := settle) k
        (cells[k].length - 1) hk (by omega)).trans hd
      rw [show cellsLength cells k + (cells[k].length - 1) + 1 = cellsLength cells (k + 1) by
        rw [cellsLength_succ cells k hk]; omega] at hat
      refine (Feed.nth_listing _ hat later).trans ?_
      rw [hbit (by omega), wireBits_succ bit0 cells k hlen hk, decide_eq_false (by omega)]
  flagSlot := by
    have hall : cellsLength cells 23 = (cells.map Cell.length).sum := by
      rw [cellsLength, List.take_of_length_le hlen.le]
    exact congrArg LineIn.data (Feed.nth_listing _ (hall ▸ tickAt_wireRuns_flag) later)

end

/-- Settles O30: the wire carries a frame that a reading can follow, and the listed ticks are then over. -/
theorem armedBlockDecodesTheFrameOnTheWire : Obligations.ArmedBlockDecodesTheFrameOnTheWire := by
  intro s bit0 flagClk flag cells settle later hsync hcap hprev hrst hlen hcells hsettle hlines
  change s.lines = Feed.listing (wireRuns bit0 flagClk flag cells settle) later at hlines
  have hwire : CarriesFrame s.linesAt (cellsLength cells) s.params.tSettle (wireBits bit0 cells) flag := by
    rw [← hsettle]
    have hcarries := carriesFrame_wireRuns (bit0 := bit0) (flagClk := flagClk) (flag := flag) (settle := settle) later
      hlen hcells
    rwa [← hlines] at hcarries
  have harmed : Reaches s (cellsLength cells 0) (IsArmed s.syncResult) := .start ⟨hsync, hcap, hprev, rfl⟩
  obtain ⟨t, ht, hread⟩ := harmed.read hrst hwire (by omega)
  have hticks : cellsLength cells 23 + s.params.tSettle + 1 =
      1 + (cells.map Cell.length).sum + s.params.tSettle := by
    rw [cellsLength, List.take_of_length_le hlen.le]
    omega
  rw [hticks] at ht
  have hend : t.lines = later := by
    rw [ht.environment.2.1, hlines, show 1 + (cells.map Cell.length).sum + s.params.tSettle =
      ticksOf (wireRuns bit0 flagClk flag cells settle) by rw [ticksOf_wireRuns]; omega]
    exact Feed.skip_listing _ _ later one_le_ticks_of_mem_wireRuns
  refine ⟨t, ht, hread.busy, hread.valValid, hread.powered, ?_, fun j hj => ?_, ?_, ?_, hread.std, hread.syncResult,
    hend⟩
  · rw [hread.raw, wireBits_zero]
  · rw [hread.raw, wireBits_succ bit0 cells j hlen hj]
  · rw [hread.acc, hread.raw]
  · rw [hread.mag, hread.raw]

end Sys2Proof.Machine

/-! The caliper's frame, tick by tick (spec/30_encoding.md R81 to R83; spec/70_reset_and_hazards.md R296): one frame on
its own, and laid over a flag that is still to come. -/

namespace Sys2Proof.Machine

/-! ## One tick of listed runs -/

theorem tickAt_eq_none {α : Type} (runs : List (Run α)) (n : Nat) (h : ticksOf runs ≤ n) : tickAt runs n = none := by
  simpa [Nat.not_lt.mpr h] using tickAt_isSome runs n

theorem bitTick_append (runs later : List (Run LineIn)) (n : Nat) :
    bitTick (runs ++ later) n = if n < ticksOf runs then bitTick runs n else bitTick later (n - ticksOf runs) := by
  induction runs generalizing n with
  | nil => simp
  | cons r rest ih =>
    rw [List.cons_append, bitTick, bitTick, ih, ticksOf_cons]
    by_cases hr : n < r.ticks
    · rw [if_pos hr, if_pos hr, if_pos (by omega)]
    · rw [if_neg hr, if_neg hr, Nat.sub_sub]
      exact if_congr (by omega) rfl rfl

/-- In tick `n` the runs present `v`, and `bit` says whether it is the first tick of a low run. -/
structure Presents (runs : List (Run LineIn)) (n : Nat) (v : LineIn) (bit : Bool) : Prop where
  level : tickAt runs n = some v
  isBit : bitTick runs n = bit

theorem Presents.lt {runs : List (Run LineIn)} {n : Nat} {v : LineIn} {bit : Bool} (h : Presents runs n v bit) :
    n < ticksOf runs := by
  simpa [h.level] using tickAt_isSome runs n

theorem Presents.head {r : Run LineIn} {later : List (Run LineIn)} {j : Nat} (h : j < r.ticks) :
    Presents (r :: later) j r.val (!r.val.clk && j == 0) :=
  ⟨if_pos h, if_pos h⟩

theorem Presents.append_left {runs later : List (Run LineIn)} {n : Nat} {v : LineIn} {bit : Bool}
    (h : Presents runs n v bit) : Presents (runs ++ later) n v bit :=
  ⟨by rw [tickAt_append, if_pos h.lt, h.level], by rw [bitTick_append, if_pos h.lt, h.isBit]⟩

theorem Presents.append_right {runs later : List (Run LineIn)} {n : Nat} {v : LineIn} {bit : Bool}
    (h : Presents later n v bit) : Presents (runs ++ later) (ticksOf runs + n) v bit := by
  have hn : ¬ticksOf runs + n < ticksOf runs := by omega
  constructor
  · rw [tickAt_append, if_neg hn, Nat.add_sub_cancel_left, h.level]
  · rw [bitTick_append, if_neg hn, Nat.add_sub_cancel_left, h.isBit]

theorem Presents.tail {r : Run LineIn} {later : List (Run LineIn)} {n : Nat} {v : LineIn} {bit : Bool}
    (h : Presents later n v bit) : Presents (r :: later) (r.ticks + n) v bit := by
  simpa using h.append_right (runs := [r])

/-- Runs laid over others, in a tick: the clock level is theirs, and the data level where a bit stands. -/
theorem Presents.tickAt_layOver {runs : List (Run LineIn)} {n : Nat} {v : LineIn} {bit : Bool}
    (h : Presents runs n v bit) (under : List (Run LineIn)) :
    tickAt (layOver runs under) n = some ⟨v.clk, if bit then v.data else ((tickAt under n).getD v).data⟩ := by
  rw [Machine.tickAt_layOver _ _ _ _ h.level, h.isBit]

/-! ## The ticks of one frame -/

/-- All that one transmission adds: the rest of the silence, the frame, and the ticks up to its flag. -/
def sentRuns (w : Waveform) (tSettle : Nat) (bits : RawFrame) (flag : Level) : List (Run LineIn) :=
  frameRuns w tSettle bits flag ++ lateRuns w tSettle flag

section
variable (w : Waveform) (tSettle : Nat) (bits : RawFrame) (flag : Level)

theorem ticksOf_sentRuns : ticksOf (sentRuns w tSettle bits flag) =
    w.lead tSettle + w.frameTicks + w.flagHold tSettle + w.lateTicks tSettle := by
  rw [sentRuns, ticksOf_append, ticksOf_frameRuns, ticksOf_lateRuns]

theorem ticksOf_burstRuns : ticksOf (burstRuns w tSettle bits flag) = w.frameTicks + w.flagHold tSettle := by
  have h := ticksOf_frameRuns w tSettle bits flag
  simp only [frameRuns, ticksOf_cons] at h
  omega

/-- The flag's tick is in the last low phase or in the ticks with the flag after it. -/
theorem tSettle_lt_flagTicks : tSettle < w.wLo + (w.flagHold tSettle + w.lateTicks tSettle) := by
  rw [Waveform.flagHold, Waveform.lateTicks]
  omega

/-- The gap is what the flag takes of it and what is left. -/
theorem flagHold_add_lead : w.flagHold tSettle + w.lead tSettle = w.wGap := by
  rw [Waveform.lead, Waveform.flagHold]
  omega

/-- Cell `i` of the cells from `k` on. -/
theorem presents_cellRuns (n k i : Nat) (hi : i < n) :
    (∀ j, j < w.wLo → Presents (cellRuns w bits n k) (i * (w.wLo + w.wHi) + j) ⟨false, bits.getLsbD (k + i)⟩ (j == 0)) ∧
    (∀ j, j < w.wHi →
      Presents (cellRuns w bits n k) (i * (w.wLo + w.wHi) + w.wLo + j) ⟨true, bits.getLsbD (k + i + 1)⟩ false) := by
  induction n generalizing k i with
  | zero => omega
  | succ n ih =>
    rw [cellRuns]
    cases i with
    | zero =>
      rw [Nat.zero_mul, Nat.zero_add]
      exact ⟨fun j hj => by rw [Nat.zero_add]; exact .head hj, fun j hj => .tail (.head hj)⟩
    | succ i =>
      obtain ⟨hlow, hhigh⟩ := ih (k + 1) i (by omega)
      rw [Nat.succ_mul, show k + (i + 1) = k + 1 + i by omega]
      constructor <;> intro j hj
      · rw [show i * (w.wLo + w.wHi) + (w.wLo + w.wHi) + j = w.wLo + (w.wHi + (i * (w.wLo + w.wHi) + j)) by omega]
        exact .tail (.tail (hlow j hj))
      · rw [show i * (w.wLo + w.wHi) + (w.wLo + w.wHi) + w.wLo + j =
          w.wLo + (w.wHi + (i * (w.wLo + w.wHi) + w.wLo + j)) by omega]
        exact .tail (.tail (hhigh j hj))

/-- The low phase of bit `k`. -/
theorem presents_burstRuns_low (hsettle : 1 ≤ tSettle) (k j : Nat) (hk : k < 24) (hj : j < w.wLo) :
    Presents (burstRuns w tSettle bits flag) (k * (w.wLo + w.wHi) + j)
      ⟨false, if k = 23 ∧ tSettle ≤ j then flag else bits.getLsbD k⟩ (j == 0 || (k == 23 && j == tSettle)) := by
  by_cases hlast : k = 23
  · subst hlast
    rw [← ticksOf_cellRuns w bits 23 0]
    apply Presents.append_right
    by_cases hflag : tSettle ≤ j
    · have hmin : min w.wLo tSettle = tSettle := by omega
      have hbit : (j == 0 || (23 == 23 && j == tSettle)) = (j - tSettle == 0) := by
        rw [Bool.eq_iff_iff]; simp; omega
      rw [if_pos ⟨rfl, hflag⟩, hmin, hbit, ← Nat.add_sub_of_le hflag, Nat.add_sub_cancel_left]
      exact .tail (.head (r := ⟨⟨false, flag⟩, w.wLo - tSettle⟩) (by simp; omega))
    · have hbit : (j == 0 || (23 == 23 && j == tSettle)) = (j == 0) := by rw [Bool.eq_iff_iff]; simp; omega
      rw [if_neg (by simp [hflag]), hbit]
      exact .head (r := ⟨⟨false, bits.getLsbD 23⟩, min w.wLo tSettle⟩) (by simp; omega)
  · have hcell := (presents_cellRuns w bits 23 0 k (by omega)).1 j hj
    have hbit : (j == 0 || (k == 23 && j == tSettle)) = (j == 0) := by simp [hlast]
    rw [Nat.zero_add] at hcell
    rw [if_neg (by simp [hlast]), hbit]
    exact hcell.append_left

/-- The high phase between bit `k` and the next one. -/
theorem presents_burstRuns_high (k j : Nat) (hk : k < 23) (hj : j < w.wHi) :
    Presents (burstRuns w tSettle bits flag) (k * (w.wLo + w.wHi) + w.wLo + j) ⟨true, bits.getLsbD (k + 1)⟩ false := by
  have hcell := (presents_cellRuns w bits 23 0 k hk).2 j hj
  rw [Nat.zero_add] at hcell
  exact hcell.append_left

/-- The flag after the return to high, in the gap. -/
theorem presents_burstRuns_hold (j : Nat) (hj : j < w.flagHold tSettle) :
    Presents (burstRuns w tSettle bits flag) (w.frameTicks + j) ⟨true, flag⟩ false := by
  have htick : w.frameTicks + j =
      ticksOf (cellRuns w bits 23 0) + (min w.wLo tSettle + (w.wLo - tSettle + j)) := by
    rw [ticksOf_cellRuns, Waveform.frameTicks]
    omega
  rw [htick]
  apply Presents.append_right
  exact .tail (.tail (.head (r := ⟨⟨true, flag⟩, w.flagHold tSettle⟩) hj))

/-- The flag is on the data line at `F_23 + T_SETTLE`, if that tick falls in the last low phase or in the gap. -/
theorem presents_burstRuns_flag (hsettle : 1 ≤ tSettle) (hgap : tSettle < w.wLo + w.flagHold tSettle) :
    ∃ c b, Presents (burstRuns w tSettle bits flag) (23 * (w.wLo + w.wHi) + tSettle) ⟨c, flag⟩ b := by
  by_cases hlow : tSettle < w.wLo
  · have h := presents_burstRuns_low w tSettle bits flag hsettle 23 tSettle (by omega) hlow
    rw [if_pos ⟨rfl, le_rfl⟩] at h
    exact ⟨_, _, h⟩
  · have h := presents_burstRuns_hold w tSettle bits flag (tSettle - w.wLo) (by omega)
    rw [show w.frameTicks + (tSettle - w.wLo) = 23 * (w.wLo + w.wHi) + tSettle by
      rw [Waveform.frameTicks]; omega] at h
    exact ⟨_, _, h⟩

theorem presents_sentRuns_lead (n : Nat) (hn : n < w.lead tSettle) :
    Presents (sentRuns w tSettle bits flag) n ⟨true, false⟩ false :=
  .append_left (.head (r := ⟨.silence, w.lead tSettle⟩) hn)

/-- A tick of the burst is that many ticks after the silence before it. -/
theorem presents_sentRuns_of_burst {n : Nat} {v : LineIn} {bit : Bool}
    (h : Presents (burstRuns w tSettle bits flag) n v bit) :
    Presents (sentRuns w tSettle bits flag) (w.lead tSettle + n) v bit :=
  h.tail.append_left

/-- After the return to high the flag is on the data line, in the gap and beyond it. -/
theorem presents_sentRuns_after (j : Nat) (hj : j < w.flagHold tSettle + w.lateTicks tSettle) :
    Presents (sentRuns w tSettle bits flag) (w.lead tSettle + (w.frameTicks + j)) ⟨true, flag⟩ false := by
  by_cases hhold : j < w.flagHold tSettle
  · exact presents_sentRuns_of_burst w tSettle bits flag (presents_burstRuns_hold w tSettle bits flag j hhold)
  · obtain ⟨i, rfl⟩ := Nat.exists_eq_add_of_le (Nat.le_of_not_lt hhold)
    have hne : w.lateTicks tSettle ≠ 0 := by omega
    rw [← Nat.add_assoc, ← Nat.add_assoc, ← ticksOf_frameRuns w tSettle bits flag, sentRuns, lateRuns, if_neg hne]
    apply Presents.append_right
    exact .head (r := ⟨⟨true, flag⟩, w.lateTicks tSettle⟩) (by simp; omega)

/-- The flag is on the data line at `F_23 + T_SETTLE`, wherever that tick falls. -/
theorem presents_sentRuns_flag (hsettle : 1 ≤ tSettle) :
    ∃ c b, Presents (sentRuns w tSettle bits flag) (w.lead tSettle + (23 * (w.wLo + w.wHi) + tSettle)) ⟨c, flag⟩ b := by
  by_cases hgap : tSettle < w.wLo + w.flagHold tSettle
  · obtain ⟨c, b, h⟩ := presents_burstRuns_flag w tSettle bits flag hsettle hgap
    exact ⟨c, b, presents_sentRuns_of_burst w tSettle bits flag h⟩
  · have hlt := tSettle_lt_flagTicks w tSettle
    have h := presents_sentRuns_after w tSettle bits flag (tSettle - w.wLo) (by omega)
    rw [show w.frameTicks + (tSettle - w.wLo) = 23 * (w.wLo + w.wHi) + tSettle by
      rw [Waveform.frameTicks]; omega] at h
    exact ⟨_, _, h⟩

end

/-! ## A frame on a feed -/

/-- What a feed lists `n` ticks from now, the pending runs included. -/
def Feed.listedAt {α : Type} (f : Feed α) (n : Nat) : Option α := tickAt (f.runs ++ f.pending) n

theorem Feed.listedAt_of_lt {α : Type} (f : Feed α) (n : Nat) (h : n < ticksOf f.runs) :
    f.listedAt n = tickAt f.runs n := by
  rw [Feed.listedAt, tickAt_append, if_pos h]

theorem Feed.listedAt_add {α : Type} (f : Feed α) (n : Nat) : f.listedAt (ticksOf f.runs + n) = tickAt f.pending n := by
  rw [Feed.listedAt, tickAt_append, if_neg (by omega), Nat.add_sub_cancel_left]

/-- After what a feed lists comes the level that it holds. -/
theorem Feed.nth_of_listed {α : Type} (choice : Nat → Nat → α) (f : Feed α) (v : α) (n : Nat)
    (hrest : f.rest = .repeating v []) (h : ticksOf (f.runs ++ f.pending) ≤ n) : f.nth choice n = v := by
  induction n generalizing f with
  | zero =>
    rcases popRun_cases f.runs with ⟨hr, _⟩ | ⟨_, _, _, hz, -⟩
    · rcases popRun_cases f.pending with ⟨hp, _⟩ | ⟨_, _, _, hz, -⟩
      · simp [Feed.pop, hr, hp, hrest]
      · simp [hz] at h
    · simp [hz] at h
  | succ n ih =>
    rw [Feed.nth_succ]
    rw [ticksOf_append] at h
    rcases popRun_cases f.runs with ⟨hr, hz⟩ | ⟨_, later, hr, hz, -⟩
    · rcases popRun_cases f.pending with ⟨hp, _⟩ | ⟨_, later, hp, hy, -⟩
      · exact ih _ (by simp [Feed.pop, hr, hp, hrest]) (by simp [Feed.pop, hr, hp, hrest])
      · exact ih _ (by simp [Feed.pop, hr, hp, hrest]) (by simp [Feed.pop, hr, hp]; omega)
    · exact ih _ (by simp [Feed.pop, hr, hrest]) (by simp [Feed.pop, hr]; omega)

section
variable (f : Feed LineIn) (w : Waveform) (tSettle : Nat) (bits : RawFrame) (flag : Level)

/-- A frame leaves what the feed listed before it. -/
theorem Feed.listedAt_sending_of_lt (n : Nat) (h : n < ticksOf f.runs) :
    (f.sending w tSettle bits flag).listedAt n = f.listedAt n := by
  rw [Feed.listedAt_of_lt f n h, Feed.listedAt, Feed.sending, List.append_assoc, tickAt_append, if_pos h]

/-- A tick of a frame on a feed: the frame's own, but for the data level where no bit stands and a flag is still to
come. -/
theorem Feed.listedAt_sending {n : Nat} {v : LineIn} {bit : Bool}
    (h : Presents (sentRuns w tSettle bits flag) n v bit) :
    (f.sending w tSettle bits flag).listedAt (ticksOf f.runs + n) =
      some ⟨v.clk, if bit then v.data else ((tickAt f.pending n).getD v).data⟩ := by
  obtain ⟨htick, hbit⟩ := h
  have hruns : (f.sending w tSettle bits flag).runs = f.runs ++ layOver (frameRuns w tSettle bits flag) f.pending := rfl
  have hpending : (f.sending w tSettle bits flag).pending =
    layOver (lateRuns w tSettle flag) (dropTicks (ticksOf (frameRuns w tSettle bits flag)) f.pending) := rfl
  rw [sentRuns, tickAt_append] at htick
  rw [sentRuns, bitTick_append] at hbit
  rw [Feed.listedAt, hruns, hpending, List.append_assoc, tickAt_append, if_neg (by omega), Nat.add_sub_cancel_left,
    tickAt_append, ticksOf_layOver]
  by_cases hn : n < ticksOf (frameRuns w tSettle bits flag)
  · rw [if_pos hn] at htick hbit ⊢
    exact Presents.tickAt_layOver ⟨htick, hbit⟩ _
  · rw [if_neg hn] at htick hbit ⊢
    rw [Presents.tickAt_layOver ⟨htick, hbit⟩, tickAt_dropTicks, Nat.add_sub_of_le (Nat.le_of_not_lt hn)]

theorem Feed.ticksOf_sending :
    ticksOf ((f.sending w tSettle bits flag).runs ++ (f.sending w tSettle bits flag).pending) =
      ticksOf f.runs + ticksOf (sentRuns w tSettle bits flag) := by
  rw [ticksOf_append, Feed.ticksOf_sending_runs, Feed.ticksOf_sending_pending, sentRuns, ticksOf_append,
    ticksOf_frameRuns_eq_period, ticksOf_lateRuns, Nat.add_assoc]

/-- From the return to high after a frame on the clock is high, for ever. -/
theorem Feed.clk_sending_after (n : Nat) (h : ticksOf f.runs + w.lead tSettle + w.frameTicks ≤ n) :
    ((f.sending w tSettle bits flag).nth LineIn.choice n).clk = true := by
  by_cases hn : n < ticksOf f.runs + ticksOf (sentRuns w tSettle bits flag)
  · rw [ticksOf_sentRuns] at hn
    obtain ⟨j, rfl⟩ := Nat.exists_eq_add_of_le h
    have hat := f.listedAt_sending w tSettle bits flag
      (presents_sentRuns_after w tSettle bits flag j (by omega))
    rw [← Nat.add_assoc, ← Nat.add_assoc] at hat
    rw [Feed.nth_of_tickAt _ _ _ _ hat]
  · rw [Feed.nth_of_listed _ _ .silence n rfl (by rw [Feed.ticksOf_sending]; omega)]
    rfl

/-- Where no flag is still to come, a frame has its own levels at every tick. -/
theorem Feed.nth_sending_of_settled (hp : f.pending = []) {n : Nat} {v : LineIn} {bit : Bool}
    (h : Presents (sentRuns w tSettle bits flag) n v bit) :
    (f.sending w tSettle bits flag).nth LineIn.choice (ticksOf f.runs + n) = v := by
  apply Feed.nth_of_tickAt
  refine (f.listedAt_sending w tSettle bits flag h).trans ?_
  rw [hp]
  simp [tickAt]

end

/-- Settles O44: the phases of the frame on a feed without a pending flag. -/
theorem frameOnTheLinesIsTheReferenceWaveform : Obligations.FrameOnTheLinesIsTheReferenceWaveform := by
  refine ⟨fun bits flag s => exec_frame24 bits flag s, ?_⟩
  intro f w tSettle bits flag _ _ hsettle hp
  have hat : ∀ m n v b, Presents (sentRuns w tSettle bits flag) n v b → m = ticksOf f.runs + n →
      (f.sending w tSettle bits flag).nth LineIn.choice m = v := by
    rintro _ n v b h rfl
    exact f.nth_sending_of_settled w tSettle bits flag hp h
  refine ⟨fun n hn => ?_, fun n hn hlead => ?_, fun k j hk hj => ?_, fun k j hk hj => ?_, fun j hj => ?_, ?_,
    f.clk_sending_after w tSettle bits flag⟩
  · obtain ⟨v, hv⟩ := Option.isSome_iff_exists.mp ((tickAt_isSome f.runs n).trans (decide_eq_true hn))
    have hlisted : f.listedAt n = some v := (f.listedAt_of_lt n hn).trans hv
    exact (Feed.nth_of_tickAt _ _ n v ((f.listedAt_sending_of_lt w tSettle bits flag n hn).trans hlisted)).trans
      (Feed.nth_of_tickAt _ f n v hlisted).symm
  · exact hat _ _ _ _ (presents_sentRuns_lead w tSettle bits flag (n - ticksOf f.runs) (by omega)) (by omega)
  · have hlow := presents_burstRuns_low w tSettle bits flag hsettle k j hk hj
    exact hat _ _ _ _ (presents_sentRuns_of_burst w tSettle bits flag hlow) (by omega)
  · have hhigh := presents_burstRuns_high w tSettle bits flag k j hk hj
    exact hat _ _ _ _ (presents_sentRuns_of_burst w tSettle bits flag hhigh) (by omega)
  · exact hat _ _ _ _ (presents_sentRuns_after w tSettle bits flag j (by omega)) (by omega)
  · obtain ⟨c, b, h⟩ := presents_sentRuns_flag w tSettle bits flag hsettle
    exact congrArg LineIn.data (hat _ _ _ _ h (by omega))

end Sys2Proof.Machine

/-! The caliper's frame read back (spec/30_encoding.md R89 to R91; spec/70_reset_and_hazards.md R296 to R303), and
frames sent one after another (R296). -/

namespace Sys2Proof.Machine

/-! ## The clock of a frame -/

/-- From tick `start` on the clock has the 24 low phases of a frame, and the high phases between them. -/
structure CarriesClock (w : Waveform) (wire : Nat → LineIn) (start : Nat) : Prop where
  low : ∀ k j, k < 24 → j < w.wLo → (wire (start + k * (w.wLo + w.wHi) + j)).clk = false
  high : ∀ k j, k < 23 → j < w.wHi → (wire (start + k * (w.wLo + w.wHi) + w.wLo + j)).clk = true

/-- It is enough that the clock levels are those of a burst. -/
theorem CarriesClock.of_burst {w : Waveform} {tSettle : Nat} {bits : RawFrame} {flag : Level} {wire : Nat → LineIn}
    {start : Nat} (hsettle : 1 ≤ tSettle)
    (h : ∀ n v b, Presents (burstRuns w tSettle bits flag) n v b → (wire (start + n)).clk = v.clk) :
    CarriesClock w wire start where
  low k j hk hj := by
    rw [Nat.add_assoc]
    exact h _ _ _ (presents_burstRuns_low w tSettle bits flag hsettle k j hk hj)
  high k j hk hj := by
    rw [Nat.add_assoc, Nat.add_assoc, ← Nat.add_assoc (k * _)]
    exact h _ _ _ (presents_burstRuns_high w tSettle bits flag k j hk hj)

/-- With such a clock, phases of a tick and cells of three, the bits at the falling edges and the flag in its slot make
a frame that a reading can follow (R297, R298). -/
theorem CarriesClock.carriesFrame {w : Waveform} {wire : Nat → LineIn} {start tSettle : Nat} {bits : RawFrame}
    {flag : Level} (h : CarriesClock w wire start) (hlo : 1 ≤ w.wLo) (hhi : 1 ≤ w.wHi) (hcell : 3 ≤ w.wLo + w.wHi)
    (hbit : ∀ k, k < 24 → (wire (start + k * (w.wLo + w.wHi))).data = bits.getLsbD k)
    (hflag : (wire (start + 23 * (w.wLo + w.wHi) + tSettle)).data = flag) :
    CarriesFrame wire (fun k => start + k * (w.wLo + w.wHi)) tSettle bits flag where
  cell k hk := by
    have hnext : (k + 1) * (w.wLo + w.wHi) = k * (w.wLo + w.wHi) + (w.wLo + w.wHi) := Nat.succ_mul _ _
    refine ⟨by omega, start + k * (w.wLo + w.wHi) + w.wLo, by omega, by omega, fun n h1 h2 => ?_, fun n h1 h2 => ?_⟩
    · obtain ⟨j, rfl⟩ := Nat.exists_eq_add_of_le h1.le
      exact h.low k j (by omega) (by omega)
    · obtain ⟨j, rfl⟩ := Nat.exists_eq_add_of_le h1
      exact h.high k j hk (by omega)
  bit k hk := by
    have hclk := h.low k 0 hk hlo
    rw [← hbit k hk, ← hclk]
    rfl
  flagSlot := hflag

/-! ## A frame that is sent is read back -/

section
variable (f : Feed LineIn) (w : Waveform) (tSettle : Nat) (bits : RawFrame) (flag : Level)

/-- The clock of a frame is its own, whatever flag is still to come. -/
theorem Feed.clk_sending {n : Nat} {v : LineIn} {b : Bool} (h : Presents (sentRuns w tSettle bits flag) n v b) :
    ((f.sending w tSettle bits flag).nth LineIn.choice (ticksOf f.runs + n)).clk = v.clk := by
  rw [Feed.nth_of_tickAt _ _ _ _ (f.listedAt_sending w tSettle bits flag h)]

theorem Feed.carriesClock_sending (hsettle : 1 ≤ tSettle) :
    CarriesClock w (fun n => (f.sending w tSettle bits flag).nth LineIn.choice n) (ticksOf f.runs + w.lead tSettle) :=
  .of_burst hsettle fun n v b h => by
    rw [Nat.add_assoc]
    exact f.clk_sending w tSettle bits flag (presents_sentRuns_of_burst w tSettle bits flag h)

/-- A frame that is sent is one that a reading can follow, if no earlier flag is still to come in its slot. -/
theorem Feed.carriesFrame_sending (hlo : 1 ≤ w.wLo) (hhi : 1 ≤ w.wHi) (hcell : 3 ≤ w.wLo + w.wHi)
    (hsettle : 1 ≤ tSettle) (hpending : ticksOf f.pending ≤ w.lead tSettle + (23 * (w.wLo + w.wHi) + tSettle)) :
    CarriesFrame (fun n => (f.sending w tSettle bits flag).nth LineIn.choice n)
      (fun k => ticksOf f.runs + w.lead tSettle + k * (w.wLo + w.wHi)) tSettle bits flag := by
  refine (f.carriesClock_sending w tSettle bits flag hsettle).carriesFrame hlo hhi hcell (fun k hk => ?_) ?_
  · have h := f.listedAt_sending w tSettle bits flag
      (presents_sentRuns_of_burst w tSettle bits flag (presents_burstRuns_low w tSettle bits flag hsettle k 0 hk hlo))
    rw [Nat.add_zero, ← Nat.add_assoc] at h
    rw [Feed.nth_of_tickAt _ _ _ _ h, if_neg (show ¬(k = 23 ∧ tSettle ≤ 0) by omega)]
    rfl
  · obtain ⟨c, b, hv⟩ := presents_sentRuns_flag w tSettle bits flag hsettle
    have h := f.listedAt_sending w tSettle bits flag hv
    rw [tickAt_eq_none _ _ hpending, ← Nat.add_assoc, ← Nat.add_assoc] at h
    rw [Feed.nth_of_tickAt _ _ _ _ h]
    simp

end

/-- An armed block waits for the first edge, and needs one high tick before it. -/
theorem Reaches.armed_of_high {s : State} (hrst : s.noReset) (hs : s.sync = .idle) (ha : s.cap = .armed) {n : Nat}
    (hready : s.clkPrev = true ∨ 1 ≤ n) (hhigh : ∀ i, i < n → (s.linesAt i).clk = true) :
    Reaches s n (IsArmed s.syncResult) := by
  rcases Nat.eq_zero_or_pos n with rfl | hpos
  · exact .start ⟨hs, ha, hready.resolve_right (by omega), rfl⟩
  · have hfirst : Reaches s 1 (IsArmed s.syncResult) :=
      (Reaches.start (p := (· = s)) rfl).next fun t _ h => by
        rw [show t = s from h]
        exact step_armed_of_high (hrst 0) hs ha (hhigh 0 hpos)
    exact hfirst.armed_until hrst hpos fun i _ hi => hhigh i hi

/-- Settles O31: the frame on the lines is one that a reading can follow. -/
theorem transmittedFrameIsDecoded : Obligations.TransmittedFrameIsDecoded := by
  intro s u bits flag lead hsync hcap hrst hwf hsettle hruns hpending hready hu
  simp only [Waveform.wf, Bool.and_eq_true, decide_eq_true_eq] at hwf
  obtain ⟨⟨⟨⟨hlo, hhi⟩, hcell⟩, -⟩, -⟩ := hwf
  obtain rfl := Host.Outcome.next.inj ((exec_frame24 bits flag s).symm.trans hu)
  have hframe := s.lines.carriesFrame_sending s.wave s.params.tSettle bits flag hlo hhi hcell hsettle (by omega)
  have hhigh : ∀ i, i < lead →
      ((s.lines.sending s.wave s.params.tSettle bits flag).nth LineIn.choice i).clk = true := by
    intro i hi
    have h := s.lines.clk_sending s.wave s.params.tSettle bits flag
      (presents_sentRuns_lead s.wave s.params.tSettle bits flag i hi)
    rwa [hruns, ticksOf_nil, Nat.zero_add] at h
  simp only [hruns, ticksOf_nil, Nat.zero_add] at hframe
  have harmed := Reaches.armed_of_high (s := { s with lines := s.lines.sending s.wave s.params.tSettle bits flag })
    hrst hsync hcap hready hhigh
  rw [← Nat.add_zero lead, ← Nat.zero_mul (s.wave.wLo + s.wave.wHi)] at harmed
  obtain ⟨t, ht, hread⟩ := Reaches.read
    (s := { s with lines := s.lines.sending s.wave s.params.tSettle bits flag }) hrst hframe harmed hsettle
  exact ⟨t, ht, hread.busy, hread.valValid, hread.powered, hread.raw, hread.acc, hread.mag, hread.std⟩

/-! ## Frames one after another -/

/-- A feed on which frames are sent one after another. -/
def Feed.sendingAll (f : Feed LineIn) (w : Waveform) (tSettle : Nat) (frames : List (RawFrame × Level)) : Feed LineIn :=
  frames.foldl (fun g p => g.sending w tSettle p.1 p.2) f

section
variable (f : Feed LineIn) (w : Waveform) (tSettle : Nat) (frames : List (RawFrame × Level))

/-- Each frame takes a period. -/
theorem Feed.ticksOf_sendingAll_runs :
    ticksOf (f.sendingAll w tSettle frames).runs = ticksOf f.runs + frames.length * (w.frameTicks + w.wGap) := by
  induction frames generalizing f with
  | nil => simp [Feed.sendingAll]
  | cons p frames ih =>
    have h := ih (f.sending w tSettle p.1 p.2)
    rw [Feed.ticksOf_sending_runs] at h
    rw [List.length_cons, Nat.succ_mul]
    exact h.trans (by omega)

/-- What is still to come is never more than the ticks up to the last flag. -/
theorem Feed.ticksOf_sendingAll_pending (h : ticksOf f.pending ≤ w.lateTicks tSettle) :
    ticksOf (f.sendingAll w tSettle frames).pending ≤ w.lateTicks tSettle := by
  induction frames generalizing f with
  | nil => exact h
  | cons p frames ih => exact ih _ (f.ticksOf_sending_pending w tSettle p.1 p.2).le

/-- The frames leave what the feed listed before them. -/
theorem Feed.listedAt_sendingAll_of_lt (n : Nat) (h : n < ticksOf f.runs) :
    (f.sendingAll w tSettle frames).listedAt n = f.listedAt n := by
  induction frames generalizing f with
  | nil => rfl
  | cons p frames ih =>
    refine (ih _ ?_).trans (f.listedAt_sending_of_lt w tSettle p.1 p.2 n h)
    rw [Feed.ticksOf_sending_runs]
    omega

/-- Frame `i` stands between those before it and those after it. -/
theorem Feed.sendingAll_split (i : Nat) (h : i < frames.length) :
    f.sendingAll w tSettle frames =
      ((f.sendingAll w tSettle (frames.take i)).sending w tSettle frames[i].1 frames[i].2).sendingAll w tSettle
        (frames.drop (i + 1)) := by
  conv_lhs => rw [← List.take_append_drop i frames, List.drop_eq_getElem_cons h]
  rw [Feed.sendingAll, List.foldl_append]
  rfl

/-- Where frame `i` begins. -/
theorem Feed.ticksOf_sendingAll_take (i : Nat) (h : i < frames.length) :
    ticksOf (f.sendingAll w tSettle (frames.take i)).runs = ticksOf f.runs + i * (w.frameTicks + w.wGap) := by
  rw [Feed.ticksOf_sendingAll_runs, List.length_take_of_le h.le]

/-- The tick of the falling edge of bit `k` of frame `i`. -/
def Feed.edgeTick (i k : Nat) : Nat :=
  ticksOf f.runs + w.lead tSettle + i * (w.frameTicks + w.wGap) + k * (w.wLo + w.wHi)

/-- After `j` frames the edges are those of the frames from `j` on. -/
theorem Feed.edgeTick_sendingAll (i k : Nat) :
    (f.sendingAll w tSettle frames).edgeTick w tSettle i k = f.edgeTick w tSettle (frames.length + i) k := by
  rw [Feed.edgeTick, Feed.edgeTick, Feed.ticksOf_sendingAll_runs, Nat.add_mul]
  omega

/-- The clock and the bits of frame `i`, in its period, are its own. -/
theorem Feed.nth_sendingAll (i : Nat) (h : i < frames.length) {n : Nat} {v : LineIn} {bit : Bool}
    (hn : n < w.frameTicks + w.wGap) (hv : Presents (sentRuns w tSettle frames[i].1 frames[i].2) n v bit) :
    ∃ d, (f.sendingAll w tSettle frames).nth LineIn.choice
        (ticksOf f.runs + i * (w.frameTicks + w.wGap) + n) = ⟨v.clk, d⟩ ∧ (bit = true → d = v.data) := by
  have hsent := (f.sendingAll w tSettle (frames.take i)).listedAt_sending w tSettle frames[i].1 frames[i].2 hv
  have hkept := Feed.listedAt_sendingAll_of_lt
    ((f.sendingAll w tSettle (frames.take i)).sending w tSettle frames[i].1 frames[i].2) w tSettle (frames.drop (i + 1))
    (ticksOf f.runs + i * (w.frameTicks + w.wGap) + n)
    (by rw [Feed.ticksOf_sending_runs, f.ticksOf_sendingAll_take w tSettle frames i h]; omega)
  rw [f.ticksOf_sendingAll_take w tSettle frames i h] at hsent
  rw [← f.sendingAll_split w tSettle frames i h] at hkept
  exact ⟨_, Feed.nth_of_tickAt _ _ _ _ (hkept.trans hsent), fun hb => if_pos hb⟩

/-- The same for a tick counted from the frame's first edge. -/
theorem Feed.nth_sendingAll_burst (i : Nat) (h : i < frames.length) {n : Nat} {v : LineIn} {bit : Bool}
    (hv : Presents (burstRuns w tSettle frames[i].1 frames[i].2) n v bit) :
    ∃ d, (f.sendingAll w tSettle frames).nth LineIn.choice (f.edgeTick w tSettle i 0 + n) = ⟨v.clk, d⟩ ∧
      (bit = true → d = v.data) := by
  have hn := hv.lt
  rw [ticksOf_burstRuns] at hn
  have hgap := flagHold_add_lead w tSettle
  obtain ⟨d, hd, hbit⟩ := f.nth_sendingAll w tSettle frames i h (by omega)
    (presents_sentRuns_of_burst w tSettle _ _ hv)
  refine ⟨d, ?_, hbit⟩
  rw [← hd, Feed.edgeTick]
  congr 1
  omega

end

/-! ### The clock -/

section
variable (f : Feed LineIn) (w : Waveform) (tSettle : Nat) (frames : List (RawFrame × Level)) (i : Nat)
  (hi : i < frames.length)

include hi

theorem Feed.carriesClock_sendingAll (hsettle : 1 ≤ tSettle) :
    CarriesClock w (fun n => (f.sendingAll w tSettle frames).nth LineIn.choice n) (f.edgeTick w tSettle i 0) :=
  .of_burst hsettle fun n v b hv => by
    obtain ⟨d, hd, -⟩ := f.nth_sendingAll_burst w tSettle frames i hi hv
    rw [hd]

/-- After the last frame the clock is high, for ever. -/
theorem Feed.clk_sendingAll_after (n : Nat) (hlast : i + 1 = frames.length)
    (hn : f.edgeTick w tSettle i 23 + w.wLo ≤ n) :
    ((f.sendingAll w tSettle frames).nth LineIn.choice n).clk = true := by
  rw [f.sendingAll_split w tSettle frames i hi, List.drop_of_length_le hlast.ge]
  refine Feed.clk_sending_after _ w tSettle _ _ n ?_
  have hframe : w.frameTicks = 23 * (w.wLo + w.wHi) + w.wLo := rfl
  rw [f.ticksOf_sendingAll_take w tSettle frames i hi]
  rw [Feed.edgeTick] at hn
  omega

/-- In the gap after a frame the clock is high: first with its flag, then before the next frame, if there is one. -/
theorem Feed.clk_sendingAll_gap (j : Nat) (hj : j < w.wGap) :
    ((f.sendingAll w tSettle frames).nth LineIn.choice (f.edgeTick w tSettle i 23 + w.wLo + j)).clk = true := by
  have hgap := flagHold_add_lead w tSettle
  have hframe : w.frameTicks = 23 * (w.wLo + w.wHi) + w.wLo := rfl
  have hedge : f.edgeTick w tSettle i 23 + w.wLo + j = f.edgeTick w tSettle i 0 + (w.frameTicks + j) := by
    rw [Feed.edgeTick, Feed.edgeTick]
    omega
  by_cases hhold : j < w.flagHold tSettle
  · obtain ⟨d, hd, -⟩ := f.nth_sendingAll_burst w tSettle frames i hi
      (presents_burstRuns_hold w tSettle _ _ j hhold)
    rw [hedge, hd]
  · by_cases hnext : i + 1 < frames.length
    · obtain ⟨d, hd, -⟩ := f.nth_sendingAll w tSettle frames (i + 1) hnext (by omega)
        (presents_sentRuns_lead w tSettle _ _ (j - w.flagHold tSettle) (by omega))
      have hlead : f.edgeTick w tSettle i 0 + (w.frameTicks + j) =
          ticksOf f.runs + (i + 1) * (w.frameTicks + w.wGap) + (j - w.flagHold tSettle) := by
        rw [Feed.edgeTick, Nat.succ_mul]
        omega
      rw [hedge, hlead, hd]
    · exact f.clk_sendingAll_after w tSettle frames i hi _ (by omega) (by omega)

end

/-! ### The bits and the flags -/

/-- The low runs of cells begin at the falling edges. -/
theorem bitTick_cellRuns (w : Waveform) (bits : RawFrame) (n k m : Nat) (h : bitTick (cellRuns w bits n k) m = true) :
    ∃ i, i < n ∧ m = i * (w.wLo + w.wHi) := by
  induction n generalizing k m with
  | zero => simp [cellRuns, bitTick] at h
  | succ n ih =>
    rw [cellRuns, bitTick] at h
    split at h
    · exact ⟨0, by omega, by simpa using h⟩
    · rw [bitTick] at h
      split at h
      · simp at h
      · obtain ⟨i, hi, hm⟩ := ih _ _ h
        exact ⟨i + 1, by omega, by rw [Nat.succ_mul]; simp only at *; omega⟩

theorem bitTick_of_high (runs : List (Run LineIn)) (n : Nat) (h : ∀ r ∈ runs, r.val.clk = true) :
    bitTick runs n = false := by
  induction runs generalizing n with
  | nil => rfl
  | cons r rest ih =>
    obtain ⟨hr, hrest⟩ := List.forall_mem_cons.mp h
    rw [bitTick]
    split
    · simp [hr]
    · exact ih _ hrest

/-- Where the flag does not fall in the last low phase, the low runs of a frame begin at the falling edges. -/
theorem bitTick_sentRuns (w : Waveform) (tSettle : Nat) (bits : RawFrame) (flag : Level) (m : Nat)
    (hlate : w.wLo ≤ tSettle) (h : bitTick (sentRuns w tSettle bits flag) m = true) :
    ∃ k, k < 24 ∧ m = w.lead tSettle + k * (w.wLo + w.wHi) := by
  have hnone : w.wLo - tSettle = 0 := by omega
  have hafter : ∀ n, bitTick (⟨⟨true, flag⟩, w.flagHold tSettle⟩ :: lateRuns w tSettle flag) n = false := by
    intro n
    apply bitTick_of_high
    rw [lateRuns]
    split <;> simp
  rw [sentRuns, frameRuns, burstRuns, hnone, List.cons_append, List.append_assoc, bitTick] at h
  split at h
  · simp [LineIn.silence] at h
  next hlead =>
    simp only at hlead h
    rw [bitTick_append, ticksOf_cellRuns] at h
    split at h
    · obtain ⟨k, hk, hm⟩ := bitTick_cellRuns w bits 23 0 _ h
      exact ⟨k, by omega, by omega⟩
    · simp only [List.cons_append, List.nil_append] at h
      rw [bitTick] at h
      split at h
      · simp at h
        exact ⟨23, by omega, by omega⟩
      · rw [bitTick, if_neg (Nat.not_lt_zero _), hafter] at h
        cases h

section
variable (f : Feed LineIn) (w : Waveform) (tSettle : Nat) (frames : List (RawFrame × Level))

/-- Bit `k` of frame `i` is on the data line at its edge. -/
theorem Feed.data_sendingAll_bit (hlo : 1 ≤ w.wLo) (hsettle : 1 ≤ tSettle) (i k : Nat) (hi : i < frames.length)
    (hk : k < 24) :
    ((f.sendingAll w tSettle frames).nth LineIn.choice (f.edgeTick w tSettle i k)).data = frames[i].1.getLsbD k := by
  obtain ⟨d, hd, hbit⟩ := f.nth_sendingAll_burst w tSettle frames i hi
    (presents_burstRuns_low w tSettle _ _ hsettle k 0 hk hlo)
  have hedge : f.edgeTick w tSettle i k = f.edgeTick w tSettle i 0 + (k * (w.wLo + w.wHi) + 0) := by
    rw [Feed.edgeTick, Feed.edgeTick]
    omega
  rw [hedge, hd, hbit rfl, if_neg (by omega)]

/-- A tick still to come keeps its data level under later frames, unless a bit of one has the tick. -/
theorem Feed.data_sendingAll {n : Nat} {v : LineIn} (hv : f.listedAt n = some v)
    (hpending : ticksOf f.pending ≤ w.lateTicks tSettle) (hlate : ticksOf f.runs ≤ n → w.wLo ≤ tSettle)
    (hfree : ∀ i k, i < frames.length → k < 24 → n ≠ f.edgeTick w tSettle i k) :
    ∃ c, (f.sendingAll w tSettle frames).listedAt n = some ⟨c, v.data⟩ := by
  induction frames generalizing f v with
  | nil => exact ⟨v.clk, hv⟩
  | cons p frames ih =>
    by_cases hn : n < ticksOf f.runs
    · exact ⟨v.clk, (f.listedAt_sendingAll_of_lt w tSettle (p :: frames) n hn).trans hv⟩
    · obtain ⟨m, rfl⟩ := Nat.exists_eq_add_of_le (Nat.le_of_not_lt hn)
      have hlate := hlate (Nat.le_of_not_lt hn)
      rw [Feed.listedAt_add] at hv
      have hm : m < ticksOf f.pending := by simpa [hv] using tickAt_isSome f.pending m
      have hsome : (tickAt (sentRuns w tSettle p.1 p.2) m).isSome = true := by
        rw [tickAt_isSome, ticksOf_sentRuns]
        exact decide_eq_true (by omega)
      obtain ⟨u, hu⟩ := Option.isSome_iff_exists.mp hsome
      have hbit : bitTick (sentRuns w tSettle p.1 p.2) m = false := by
        by_contra hb
        obtain ⟨k, hk, hmk⟩ := bitTick_sentRuns w tSettle p.1 p.2 m hlate (by simpa using hb)
        exact hfree 0 k (by simp) hk (by rw [Feed.edgeTick]; omega)
      have hsent := f.listedAt_sending w tSettle p.1 p.2 ⟨hu, hbit⟩
      rw [hv, if_neg Bool.false_ne_true, Option.getD_some] at hsent
      refine ih (f.sending w tSettle p.1 p.2) (v := ⟨u.clk, v.data⟩) hsent
        (f.ticksOf_sending_pending w tSettle p.1 p.2).le (fun _ => hlate) fun i k hi hk he => ?_
      refine hfree (i + 1) k (by simpa using hi) hk (he.trans ?_)
      rw [Nat.add_comm i 1]
      exact f.edgeTick_sendingAll w tSettle [p] i k

/-- The flag of frame `i` is on the data line in its slot, unless a bit of a later frame has that tick. -/
theorem Feed.data_sendingAll_flag (hlo : 1 ≤ w.wLo) (hsettle : 1 ≤ tSettle)
    (hpending : ticksOf f.pending ≤ w.lateTicks tSettle) (i : Nat) (hi : i < frames.length)
    (hfree : ∀ i' k, i' < frames.length → k < 24 →
      f.edgeTick w tSettle i 23 + tSettle ≠ f.edgeTick w tSettle i' k) :
    ((f.sendingAll w tSettle frames).nth LineIn.choice (f.edgeTick w tSettle i 23 + tSettle)).data =
      frames[i].2 := by
  have hgap := flagHold_add_lead w tSettle
  have hframe : w.frameTicks = 23 * (w.wLo + w.wHi) + w.wLo := rfl
  have hlate : w.lateTicks tSettle = tSettle + 1 - (w.wLo + w.wGap) := rfl
  have hslot : f.edgeTick w tSettle i 23 + tSettle = ticksOf (f.sendingAll w tSettle (frames.take i)).runs +
      (w.lead tSettle + (23 * (w.wLo + w.wHi) + tSettle)) := by
    rw [Feed.edgeTick, f.ticksOf_sendingAll_take w tSettle frames i hi]
    omega
  have hpend := f.ticksOf_sendingAll_pending w tSettle (frames.take i) hpending
  obtain ⟨c, b, hflag⟩ := presents_sentRuns_flag w tSettle frames[i].1 frames[i].2 hsettle
  have hsent := (f.sendingAll w tSettle (frames.take i)).listedAt_sending w tSettle frames[i].1 frames[i].2 hflag
  rw [tickAt_eq_none _ _ (hpend.trans (by omega)), Option.getD_none, ite_self, ← hslot] at hsent
  obtain ⟨c', hlater⟩ : ∃ c', (f.sendingAll w tSettle frames).listedAt (f.edgeTick w tSettle i 23 + tSettle) =
      some ⟨c', frames[i].2⟩ := by
    rw [f.sendingAll_split w tSettle frames i hi]
    refine Feed.data_sendingAll _ w tSettle (frames.drop (i + 1)) hsent
      (Feed.ticksOf_sending_pending _ w tSettle _ _).le (fun h => ?_) (fun i' k hi' hk he => ?_)
    · rw [Feed.ticksOf_sending_runs] at h
      omega
    · rw [List.length_drop] at hi'
      have hsend := (f.sendingAll w tSettle (frames.take i)).edgeTick_sendingAll w tSettle [frames[i]] i' k
      rw [f.edgeTick_sendingAll, List.length_take_of_le hi.le] at hsend
      exact hfree _ k (by simp; omega) hk (he.trans hsend)
  rw [Feed.nth_of_tickAt _ _ _ _ hlater]

end

/-- Settles O55: the phases of each frame in its period, and the flags, which later frames leave in their ticks. -/
theorem successiveFramesAreTheReferenceWaveform : Obligations.SuccessiveFramesAreTheReferenceWaveform := by
  intro f w tSettle frames hlo _ _ hsettle hpending sent at_ edge
  have hfrom : ∀ i k, edge i k = f.edgeTick w tSettle i 0 + k * (w.wLo + w.wHi) := fun i k => by
    show f.edgeTick w tSettle i k = _
    rw [Feed.edgeTick, Feed.edgeTick]
    omega
  have hclock : ∀ i, i < frames.length → CarriesClock w at_ (f.edgeTick w tSettle i 0) := fun i hi =>
    f.carriesClock_sendingAll w tSettle frames i hi hsettle
  refine ⟨fun i k j hi hk hj => ?_, fun i k j hi hk hj => ?_,
    fun i j hi hj => f.clk_sendingAll_gap w tSettle frames i hi j hj, fun n hpos hn => ?_,
    fun i k hi hk => f.data_sendingAll_bit w tSettle frames hlo hsettle i k hi hk,
    f.data_sendingAll_flag w tSettle frames hlo hsettle (hpending ▸ Nat.zero_le _)⟩
  · rw [hfrom]
    exact (hclock i hi).low k j hk hj
  · rw [hfrom]
    exact (hclock i hi).high k j hk hj
  · exact f.clk_sendingAll_after w tSettle frames (frames.length - 1) (by omega) n (by omega) hn

end Sys2Proof.Machine

/-! A search over one whole frame (spec/41_frame_synchronizer.md R130 to R148), and a whole reading: FIND_GAP, then
READ_VALUE (spec/70_reset_and_hazards.md R300 to R303). -/

namespace Sys2Proof.Machine

/-! ## The states of a search -/

theorem Inv.one_le_tPrepos {s : State} (h : Inv s) : 1 ≤ s.params.tPrepos := by
  have hw := h.params
  simp only [Params.wf, Bool.and_eq_true, decide_eq_true_eq] at hw
  omega

theorem Inv.one_le_tSettle {s : State} (h : Inv s) : 1 ≤ s.params.tSettle := by
  have hw := h.params
  simp only [Params.wf, Bool.and_eq_true, decide_eq_true_eq] at hw
  omega

/-- In a pass or the final wait, in the state `r`, with `a` and `p` ticks of the two timers to go. -/
structure IsInPass (r : SyncReg) (a p : Nat) (s : State) : Prop where
  sync : s.sync = r
  cap : s.cap = .idle
  al : s.al = .running a
  po : s.po = .running p

/-- In the pre-positioning sleep, with `b` ticks to go. -/
structure IsPrepositioning (b : Nat) (s : State) : Prop where
  sync : s.sync = .prepos
  cap : s.cap = .idle
  power : s.power = .on
  sl : s.sl = .running b

/-- Idle after a search that has found the gap. -/
structure IsAligned (s : State) : Prop where
  sync : s.sync = .idle
  cap : s.cap = .idle
  power : s.power = .on
  syncResult : s.syncResult = .aligned

/-- Where a tick of a pass leads that is not the return to high (R135, R136, R140). -/
def passNext (r : SyncReg) (clk : Level) : SyncReg :=
  match r with
  | .passHi k => if clk then .passLo k else .passHi k
  | .passLo k => if clk then .passLo k else afterCell k
  | .idle => .idle
  | .final => .final
  | .retry => .retry
  | .prepos => .prepos

/-- Low ticks after the end of a cell change nothing. -/
theorem passNext_afterCell_low (k : Fin 24) : passNext (afterCell k) false = afterCell k := by
  rcases afterCell_cases k with ⟨_, e⟩ | ⟨_, e⟩ <;> rw [e] <;> rfl

theorem inPass_afterCell (k : Fin 24) : (afterCell k).inPass = true := by
  rcases afterCell_cases k with ⟨_, e⟩ | ⟨_, e⟩ <;> rw [e] <;> rfl

/-! ## One tick of a search -/

section
variable {r : SyncReg} {a p : Nat} {s : State}

/-- With time to go on both timers a tick of a pass is its level wait (R137). -/
theorem IsInPass.passTick_eq (h : IsInPass r a p s) (ha : 2 ≤ a) (hp : 2 ≤ p) (w : State) :
    s.countdown.passTick w = w := by
  have hal : s.countdown.al.fired = false := by simp [h.al]; omega
  have hpo : s.countdown.po.fired = false := by simp [h.po]; omega
  rw [State.passTick, hal, hpo]
  rfl

theorem IsInPass.step_of_wait (h : IsInPass r a p s) (ha : 2 ≤ a) (hp : 2 ≤ p) (hr : s.hostNow.rst = false)
    (hpass : r.inPass = true) (hwait : ¬(r = .final ∧ s.clk = true)) :
    ∃ t, step s = .next t ∧ IsInPass (passNext r s.clk) (a - 1) (p - 1) t := by
  have hne : s.sync ≠ .idle := by
    rw [h.sync]
    rintro rfl
    cases hpass
  have hal : s.countdown.al = .running (a - 1) := by rw [State.countdown_al, h.al]; rfl
  have hpo : s.countdown.po = .running (p - 1) := by rw [State.countdown_po, h.po]; rfl
  refine ⟨_, step_of_search s hr hne, ?_⟩
  have hsync : s.countdown.sync = r := h.sync
  cases r with
  | idle | retry | prepos => cases hpass
  | passHi k =>
    simp only [State.searchTick, hsync, h.passTick_eq ha hp, State.syncWaitHigh, State.countdown_clk]
    cases s.clk
    · exact ⟨h.sync, h.cap, hal, hpo⟩
    · exact ⟨rfl, h.cap, hal, hpo⟩
  | passLo k =>
    simp only [State.searchTick, hsync, h.passTick_eq ha hp, State.syncWaitLow, State.countdown_clk]
    cases s.clk
    · exact ⟨rfl, h.cap, hal, hpo⟩
    · exact ⟨h.sync, h.cap, hal, hpo⟩
  | final =>
    have hlow : s.clk = false := by simpa using hwait
    simp only [State.searchTick, hsync, h.passTick_eq ha hp, State.syncWaitHigh, State.countdown_clk, hlow]
    exact ⟨h.sync, h.cap, hal, hpo⟩

/-- The return to high after the last cell (R143). -/
theorem IsInPass.step_of_return (h : IsInPass .final a p s) (ha : 2 ≤ a) (hp : 2 ≤ p) (hr : s.hostNow.rst = false)
    (hc : s.clk = true) : ∃ t, step s = .next t ∧ IsPrepositioning s.params.tPrepos t := by
  refine ⟨_, step_of_search s hr (by simp [h.sync]), ?_⟩
  have hsync : s.countdown.sync = .final := h.sync
  simp only [State.searchTick, hsync, h.passTick_eq ha hp, State.syncWaitHigh, State.countdown_clk, hc, if_true]
  exact ⟨rfl, h.cap, rfl, rfl⟩

/-- The sleep goes on until its last tick (R144). -/
theorem IsPrepositioning.step_of_wait {b : Nat} (h : IsPrepositioning (b + 2) s) (hr : s.hostNow.rst = false) :
    ∃ t, step s = .next t ∧ IsPrepositioning (b + 1) t := by
  have hsl : s.countdown.sl = .running (b + 1) := by rw [State.countdown_sl, h.sl]; rfl
  have hsync : s.countdown.sync = .prepos := h.sync
  refine ⟨_, step_of_search s hr (by simp [h.sync]), ?_⟩
  simp only [State.searchTick, hsync, hsl, Timer.fired_running]
  exact ⟨h.sync, h.cap, h.power, hsl⟩

/-- Its last tick ends the search (R145). -/
theorem IsPrepositioning.step_of_last (h : IsPrepositioning 1 s) (hr : s.hostNow.rst = false) :
    ∃ t, step s = .next t ∧ IsAligned t := by
  have hsl : s.countdown.sl = .running 0 := by rw [State.countdown_sl, h.sl]; rfl
  have hsync : s.countdown.sync = .prepos := h.sync
  refine ⟨_, step_of_search s hr (by simp [h.sync]), ?_⟩
  simp only [State.searchTick, hsync, hsl, Timer.fired_running]
  exact ⟨rfl, h.cap, h.power, rfl⟩

/-- The acceptance of FIND_GAP begins a pass (R132). -/
theorem step_of_findGap (hi : s.isIdle = true) (hr : s.hostNow.rst = false) (hcmd : s.hostNow.cmd = 1#2)
    (hp : 1 ≤ s.params.tPowerOff) :
    ∃ t, step s = .next t ∧ IsInPass (.passHi 0) s.params.tAlign s.params.tPowerOff t := by
  refine ⟨_, step_of_idle s hr hi, ?_⟩
  rw [if_pos hcmd, State.acceptFindGap_eq (s := s.countdown) hp]
  exact ⟨rfl, (s.isIdle_iff.mp hi).2, rfl, rfl⟩

/-- An aligned block stays so as long as the host presents nothing (R211). -/
theorem IsAligned.step_of_silent (h : IsAligned s) (hhost : s.hostNow = .silent) :
    ∃ t, step s = .next t ∧ IsAligned t := by
  have hi : s.isIdle = true := s.isIdle_iff.mpr ⟨h.sync, h.cap⟩
  refine ⟨_, step_of_idle s (by rw [hhost]; rfl) hi, ?_⟩
  rw [hhost]
  exact ⟨h.sync, h.cap, h.power, h.syncResult⟩

/-- The acceptance of READ_VALUE arms the trigger; with the clock high the next falling edge is taken (R213, R225). -/
theorem IsAligned.step_of_readValue (h : IsAligned s) (hhost : s.hostNow = ⟨false, 2#2⟩) (hc : s.clk = true) :
    ∃ t, step s = .next t ∧ IsArmed .aligned t := by
  have hi : s.isIdle = true := s.isIdle_iff.mpr ⟨h.sync, h.cap⟩
  refine ⟨_, step_of_idle s (by rw [hhost]) hi, ?_⟩
  rw [hhost]
  exact ⟨h.sync, rfl, hc, h.syncResult⟩

end

/-! ## A search over one whole frame -/

/-- Cell `k` of a frame ends, with the high phase after it, before the frame does. -/
theorem cell_le_frameTicks (w : Waveform) (k : Nat) (hk : k < 23) :
    k * (w.wLo + w.wHi) + w.wLo + w.wHi ≤ w.frameTicks := by
  have hle : (k + 1) * (w.wLo + w.wHi) ≤ 23 * (w.wLo + w.wHi) := Nat.mul_le_mul_right _ (by omega)
  rw [Nat.succ_mul] at hle
  rw [Waveform.frameTicks]
  omega

section
variable {s : State} (hs : s.noReset)

/-- The pass that FIND_GAP in tick 0 began is in the state `r` at tick `n`. -/
def PassAt (s : State) (n : Nat) (r : SyncReg) : Prop :=
  Reaches s n (IsInPass r (s.params.tAlign + 1 - n) (s.params.tPowerOff + 1 - n))

/-- A tick before both timers fire. -/
def InTime (s : State) (n : Nat) : Prop := n < s.params.tAlign ∧ n < s.params.tPowerOff

include hs

theorem PassAt.next {n : Nat} {r : SyncReg} (h : PassAt s n r) (htime : InTime s n) (hpass : r.inPass = true)
    (hwait : ¬(r = .final ∧ (s.linesAt n).clk = true)) : PassAt s (n + 1) (passNext r (s.linesAt n).clk) := by
  obtain ⟨halign, hpower⟩ := htime
  refine Reaches.next h fun t ht hp => ?_
  rw [← ht.linesNow] at hwait ⊢
  exact hp.step_of_wait (by omega) (by omega) (hs.after ht) hpass hwait

/-- Levels under which the state of the pass goes on leave it. -/
theorem PassAt.hold {n m : Nat} {r : SyncReg} (h : PassAt s n r) (hnm : n ≤ m) (hpass : r.inPass = true)
    (htime : InTime s m) (hkeep : ∀ i, n ≤ i → i < m → passNext r (s.linesAt i).clk = r ∧
      ¬(r = .final ∧ (s.linesAt i).clk = true)) : PassAt s m r := by
  obtain ⟨halign, hpower⟩ := htime
  induction m, hnm using Nat.le_induction with
  | base => exact h
  | succ m hnm ih =>
    obtain ⟨hnext, hwait⟩ := hkeep m hnm (Nat.lt_succ_self m)
    have hm := PassAt.next hs (ih (fun i hi him => hkeep i hi (by omega)) (by omega) (by omega)) ⟨by omega, by omega⟩
      hpass hwait
    rwa [hnext] at hm

/-- A low phase ends a cell (R136). -/
theorem PassAt.low {n m : Nat} {k : Fin 24} (h : PassAt s n (.passLo k)) (hnm : n < m) (htime : InTime s m)
    (hlow : ∀ i, n ≤ i → i < m → (s.linesAt i).clk = false) : PassAt s m (afterCell k) := by
  have hfirst := PassAt.next hs h ⟨by have := htime.1; omega, by have := htime.2; omega⟩ rfl nofun
  rw [hlow n le_rfl hnm] at hfirst
  refine PassAt.hold hs hfirst hnm (inPass_afterCell k) htime fun i hi him => ?_
  rw [hlow i (by omega) him]
  exact ⟨passNext_afterCell_low k, nofun⟩

/-- A high phase begins a cell (R135). -/
theorem PassAt.high {n m : Nat} {k : Fin 24} (h : PassAt s n (.passHi k)) (hnm : n < m) (htime : InTime s m)
    (hhigh : ∀ i, n ≤ i → i < m → (s.linesAt i).clk = true) : PassAt s m (.passLo k) := by
  have hfirst := PassAt.next hs h ⟨by have := htime.1; omega, by have := htime.2; omega⟩ rfl nofun
  rw [hhigh n le_rfl hnm] at hfirst
  refine PassAt.hold hs hfirst hnm rfl htime fun i hi him => ?_
  rw [hhigh i (by omega) him]
  exact ⟨rfl, nofun⟩

section
variable {w : Waveform} {gap : Nat} (hlo : 1 ≤ w.wLo) (hhi : 1 ≤ w.wHi) (hclock : CarriesClock w s.linesAt gap)
  (htime : InTime s (gap + w.frameTicks))
include hlo hhi hclock htime

/-- At each falling edge of the frame the pass waits for the low phase of its cell. -/
theorem PassAt.cell (hpass : PassAt s gap (.passLo 0)) (k : Nat) (hk : k < 24) :
    PassAt s (gap + k * (w.wLo + w.wHi)) (.passLo ⟨k, hk⟩) := by
  obtain ⟨halign, hpower⟩ := htime
  induction k with
  | zero => rwa [Nat.zero_mul]
  | succ k ih =>
    have hk' : k < 23 := by omega
    have hle := cell_le_frameTicks w k hk'
    have hlow := PassAt.low hs (ih (by omega)) (m := gap + k * (w.wLo + w.wHi) + w.wLo) (by omega)
      ⟨by omega, by omega⟩ fun i hi him => by
        obtain ⟨j, rfl⟩ := Nat.exists_eq_add_of_le hi
        exact hclock.low k j (by omega) (by omega)
    rw [afterCell, dif_pos hk'] at hlow
    rw [Nat.succ_mul, ← Nat.add_assoc, ← Nat.add_assoc]
    exact PassAt.high hs hlow (by omega) ⟨by omega, by omega⟩ fun i hi him => by
      obtain ⟨j, rfl⟩ := Nat.exists_eq_add_of_le hi
      exact hclock.high k j hk' (by omega)

/-- A pass that waits before the first cell of a whole frame finds the gap after it, and ends `T_PREPOS` ticks after the
return to high (R143 to R145, R300). -/
theorem PassAt.aligned (hpass : PassAt s gap (.passLo 0)) (hprepos : 1 ≤ s.params.tPrepos)
    (hreturn : (s.linesAt (gap + w.frameTicks)).clk = true) :
    Reaches s (gap + w.frameTicks + s.params.tPrepos + 1) IsAligned := by
  have hframe : gap + w.frameTicks = gap + 23 * (w.wLo + w.wHi) + w.wLo := by rw [Waveform.frameTicks]; omega
  have hfinal : PassAt s (gap + w.frameTicks) .final :=
    PassAt.low hs (PassAt.cell hs hlo hhi hclock htime hpass 23 (by omega)) (by omega) htime fun i hi him => by
      obtain ⟨j, rfl⟩ := Nat.exists_eq_add_of_le hi
      exact hclock.low 23 j (by omega) (by omega)
  have hasleep : Reaches s (gap + w.frameTicks + 1) (IsPrepositioning s.params.tPrepos) := by
    obtain ⟨halign, hpower⟩ := htime
    refine Reaches.next hfinal fun t ht hp => ?_
    rw [← ht.environment.2.2]
    exact hp.step_of_return (by omega) (by omega) (hs.after ht) (by rw [State.clk, ht.linesNow, hreturn])
  obtain ⟨d, hd⟩ := Nat.exists_eq_add_of_le' hprepos
  have hend : Reaches s (gap + w.frameTicks + 1 + d) (IsPrepositioning 1) :=
    Reaches.countdown (hd ▸ hasleep) fun _ _ _ ht hp => hp.step_of_wait (hs.after ht)
  rw [show gap + w.frameTicks + s.params.tPrepos + 1 = gap + w.frameTicks + 1 + d + 1 by omega]
  exact hend.next fun t ht hp => hp.step_of_last (hs.after ht)

/-- FIND_GAP in the silence before a whole frame is aligned on the gap after it (R148, R300). -/
theorem Reaches.aligned (h : Inv s) (hi : s.isIdle = true) (hcmd : s.hostNow.cmd = 1#2) (hgap : 2 ≤ gap)
    (hsilence : ∀ i, i < gap → (s.linesAt i).clk = true)
    (hreturn : (s.linesAt (gap + w.frameTicks)).clk = true) :
    Reaches s (gap + w.frameTicks + s.params.tPrepos + 1) IsAligned := by
  obtain ⟨halign, hpower⟩ := htime
  have haccepted : PassAt s 1 (.passHi 0) :=
    (Reaches.start (p := (· = s)) rfl).next fun t _ ht => by
      rw [show t = s from ht]
      exact step_of_findGap hi (hs 0) hcmd h.one_le_tPowerOff
  have hpass : PassAt s gap (.passLo 0) :=
    PassAt.high hs haccepted (by omega) ⟨by omega, by omega⟩ fun i _ hig => hsilence i hig
  exact PassAt.aligned hs hlo hhi hclock ⟨halign, hpower⟩ hpass h.one_le_tPrepos hreturn

end

end

/-! ## The host's script of a reading -/

/-- A feed that lists runs and then holds a level. -/
theorem Feed.nth_listing_held {α : Type} (choice : Nat → Nat → α) (runs : List (Run α)) (v : α) (n : Nat) :
    (Feed.listing runs (.held v)).nth choice n = (tickAt runs n).getD v := by
  by_cases hn : n < ticksOf runs
  · obtain ⟨u, hu⟩ := Option.isSome_iff_exists.mp ((tickAt_isSome runs n).trans (decide_eq_true hn))
    rw [Feed.nth_listing choice hu, hu, Option.getD_some]
  · rw [tickAt_eq_none runs n (Nat.le_of_not_lt hn), Option.getD_none]
    exact Feed.nth_of_listed choice _ v n rfl (by simpa [Feed.listing, Feed.held] using hn)

/-- A script of two lines presents each operation at its tick, and nothing at any other (R101). -/
theorem nth_hostScript_pair (choice : Nat → Nat → HostIn) (x y : HostIn) (m n : Nat) (hm : 1 ≤ m) :
    (hostScript [(0, x), (m, y)]).nth choice n = if n = 0 then x else if n = m then y else .silent := by
  rw [hostScript, Feed.nth_listing_held]
  simp only [scriptRuns, tickAt]
  by_cases h0 : n = 0
  · simp [h0]
  · by_cases hlt : n < m
    · rw [if_neg (by omega), if_neg (by omega), if_pos (by omega), if_neg h0, if_neg (by omega)]
      rfl
    · rw [if_neg (by omega), if_neg (by omega), if_neg (by omega), if_neg h0]
      by_cases he : n = m
      · rw [if_pos (by omega), if_pos he]
        rfl
      · rw [if_neg (by omega), if_neg he]
        rfl

/-! ## A reading on the reference waveform -/

/-- The silence, a burst, and the transmission after it. -/
def twoFrameRuns (w : Waveform) (tSettle gap : Nat) (bits0 bits1 : RawFrame) (flag0 flag1 : Level) :
    List (Run LineIn) :=
  ⟨.silence, gap⟩ :: (burstRuns w tSettle bits0 flag0 ++ frameRuns w tSettle bits1 flag1)

section
variable (w : Waveform) (tSettle gap : Nat) (bits0 bits1 : RawFrame) (flag0 flag1 : Level)

theorem presents_twoFrameRuns_first {n : Nat} {v : LineIn} {b : Bool}
    (h : Presents (burstRuns w tSettle bits0 flag0) n v b) :
    Presents (twoFrameRuns w tSettle gap bits0 bits1 flag0 flag1) (gap + n) v b :=
  .tail (.append_left h)

theorem presents_twoFrameRuns_second {n : Nat} {v : LineIn} {b : Bool}
    (h : Presents (burstRuns w tSettle bits1 flag1) n v b) :
    Presents (twoFrameRuns w tSettle gap bits0 bits1 flag0 flag1) (gap + w.frameTicks + w.wGap + n) v b := by
  have hgap := flagHold_add_lead w tSettle
  have htick : gap + w.frameTicks + w.wGap + n =
      gap + (ticksOf (burstRuns w tSettle bits0 flag0) + (w.lead tSettle + n)) := by
    rw [ticksOf_burstRuns]
    omega
  rw [htick]
  exact .tail (.append_right (.tail h))

/-- The lines on which a feed presents the two frames, and then what is free. -/
def twoFrameWire (later : Feed LineIn) (n : Nat) : LineIn :=
  (Feed.listing (twoFrameRuns w tSettle gap bits0 bits1 flag0 flag1) later).nth LineIn.choice n

variable (later : Feed LineIn)

theorem twoFrameWire_of_presents {n : Nat} {v : LineIn} {b : Bool}
    (h : Presents (twoFrameRuns w tSettle gap bits0 bits1 flag0 flag1) n v b) :
    twoFrameWire w tSettle gap bits0 bits1 flag0 flag1 later n = v :=
  Feed.nth_listing _ h.level later

theorem clk_twoFrameWire_silence (i : Nat) (hi : i < gap) :
    (twoFrameWire w tSettle gap bits0 bits1 flag0 flag1 later i).clk = true :=
  congrArg LineIn.clk (twoFrameWire_of_presents w tSettle gap bits0 bits1 flag0 flag1 later
    (.head (r := ⟨.silence, gap⟩) hi))

theorem carriesClock_twoFrameWire (hsettle : 1 ≤ tSettle) :
    CarriesClock w (twoFrameWire w tSettle gap bits0 bits1 flag0 flag1 later) gap :=
  .of_burst hsettle fun n v b h => by
    rw [twoFrameWire_of_presents w tSettle gap bits0 bits1 flag0 flag1 later
      (presents_twoFrameRuns_first w tSettle gap bits0 bits1 flag0 flag1 h)]

/-- The whole gap between the two frames is high. -/
theorem clk_twoFrameWire_gap (j : Nat) (hj : j < w.wGap) :
    (twoFrameWire w tSettle gap bits0 bits1 flag0 flag1 later (gap + w.frameTicks + j)).clk = true := by
  have hgap := flagHold_add_lead w tSettle
  by_cases hhold : j < w.flagHold tSettle
  · rw [Nat.add_assoc, twoFrameWire_of_presents w tSettle gap bits0 bits1 flag0 flag1 later
      (presents_twoFrameRuns_first w tSettle gap bits0 bits1 flag0 flag1
        (presents_burstRuns_hold w tSettle bits0 flag0 j hhold))]
  · have htick : gap + w.frameTicks + j =
        gap + (ticksOf (burstRuns w tSettle bits0 flag0) + (j - w.flagHold tSettle)) := by
      rw [ticksOf_burstRuns]
      omega
    have hlead : j - w.flagHold tSettle < w.lead tSettle := by omega
    rw [htick, twoFrameWire_of_presents w tSettle gap bits0 bits1 flag0 flag1 later
      (.tail (.append_right (.head (r := ⟨.silence, w.lead tSettle⟩) hlead)))]
    rfl

/-- The second frame is one that a reading can follow (R299). -/
theorem carriesFrame_twoFrameWire (hlo : 1 ≤ w.wLo) (hhi : 1 ≤ w.wHi) (hcell : 3 ≤ w.wLo + w.wHi)
    (hsettle : 1 ≤ tSettle) (hflag : tSettle < w.wLo + w.wGap) :
    CarriesFrame (twoFrameWire w tSettle gap bits0 bits1 flag0 flag1 later)
      (fun k => gap + w.frameTicks + w.wGap + k * (w.wLo + w.wHi)) tSettle bits1 flag1 := by
  have hwire : ∀ {n v b}, Presents (burstRuns w tSettle bits1 flag1) n v b →
      twoFrameWire w tSettle gap bits0 bits1 flag0 flag1 later (gap + w.frameTicks + w.wGap + n) = v := fun h =>
    twoFrameWire_of_presents w tSettle gap bits0 bits1 flag0 flag1 later
      (presents_twoFrameRuns_second w tSettle gap bits0 bits1 flag0 flag1 h)
  have hclock : CarriesClock w (twoFrameWire w tSettle gap bits0 bits1 flag0 flag1 later)
      (gap + w.frameTicks + w.wGap) := .of_burst hsettle fun n v b h => by rw [hwire h]
  refine hclock.carriesFrame hlo hhi hcell (fun k hk => ?_) ?_
  · have h := presents_burstRuns_low w tSettle bits1 flag1 hsettle k 0 hk hlo
    rw [Nat.add_zero] at h
    rw [hwire h]
    exact if_neg (by omega)
  · obtain ⟨c, b, h⟩ := presents_burstRuns_flag w tSettle bits1 flag1 hsettle (by rw [Waveform.flagHold]; omega)
    rw [Nat.add_assoc, hwire h]

end

/-- An aligned block to which the host presents READ_VALUE `late` ticks later, with the clock high, is then armed. -/
theorem Reaches.readValue {s : State} {n late : Nat} (h : Reaches s n IsAligned)
    (hsilent : ∀ i, n ≤ i → i < n + late → s.hostAt i = .silent) (hcmd : s.hostAt (n + late) = ⟨false, 2#2⟩)
    (hclk : (s.linesAt (n + late)).clk = true) : Reaches s (n + late + 1) (IsArmed .aligned) := by
  have hidle : Reaches s (n + late) IsAligned := h.hold (by omega) fun i hi him t ht hp =>
    hp.step_of_silent (by rw [ht.hostNow, hsilent i hi him])
  exact hidle.next fun t ht hp =>
    hp.step_of_readValue (by rw [ht.hostNow, hcmd]) (by rw [State.clk, ht.linesNow, hclk])

/-- Settles O32: the search is aligned on the first frame, the host's margin ends before the next one, and the armed
block reads that. -/
theorem readingReturnsTheTransmittedMeasurement : Obligations.ReadingReturnsTheTransmittedMeasurement := by
  intro s bits0 bits1 flag0 flag1 gap late later h hb hwf hsetup hgap halign hpower hlate hlines hhost
  simp only [Waveform.wf, workingSetup, Bool.and_eq_true, decide_eq_true_eq] at hwf hsetup
  obtain ⟨⟨⟨⟨hlo, hhi⟩, hcell⟩, -⟩, -⟩ := hwf
  obtain ⟨⟨-, hmargin⟩, hflag⟩ := hsetup
  rw [hostMargin] at hlate
  have hsettle := h.one_le_tSettle
  have hwire : s.linesAt = twoFrameWire s.wave s.params.tSettle gap bits0 bits1 flag0 flag1 later := by
    funext n
    rw [State.linesAt, hlines]
    rfl
  have hat : ∀ n, s.hostAt n = if n = 0 then ⟨false, 1#2⟩ else
      if n = gap + s.wave.frameTicks + s.params.tPrepos + 1 + late then ⟨false, 2#2⟩ else .silent := fun n => by
    rw [State.hostAt, hhost]
    exact nth_hostScript_pair _ _ _ _ n (by omega)
  have hrst : s.noReset := fun n => by
    rw [hat]
    split_ifs <;> rfl
  have hhigh : ∀ j, j < s.wave.wGap → (s.linesAt (gap + s.wave.frameTicks + j)).clk = true := by
    rw [hwire]
    exact clk_twoFrameWire_gap s.wave s.params.tSettle gap bits0 bits1 flag0 flag1 later
  have haligned : Reaches s (gap + s.wave.frameTicks + s.params.tPrepos + 1) IsAligned := by
    refine Reaches.aligned hrst hlo hhi ?_ ⟨by omega, hpower⟩ h (by simpa [State.busy] using hb)
      (congrArg HostIn.cmd (hat 0)) hgap ?_ (hhigh 0 (by omega))
    · rw [hwire]
      exact carriesClock_twoFrameWire s.wave s.params.tSettle gap bits0 bits1 flag0 flag1 later hsettle
    · rw [hwire]
      exact clk_twoFrameWire_silence s.wave s.params.tSettle gap bits0 bits1 flag0 flag1 later
  have harmed : Reaches s (gap + s.wave.frameTicks + s.params.tPrepos + 1 + late + 1) (IsArmed .aligned) := by
    refine haligned.readValue (fun i hi him => ?_) ?_ ?_
    · rw [hat, if_neg (by omega), if_neg (by omega)]
    · rw [hat, if_neg (by omega), if_pos rfl]
    · rw [Nat.add_assoc, Nat.add_assoc]
      exact hhigh _ (by omega)
  have hedge : Reaches s (gap + s.wave.frameTicks + s.wave.wGap + 0 * (s.wave.wLo + s.wave.wHi))
      (IsArmed .aligned) := by
    refine harmed.armed_until hrst (by omega) fun i hi him => ?_
    obtain ⟨j, rfl⟩ := Nat.exists_eq_add_of_le (show gap + s.wave.frameTicks ≤ i by omega)
    exact hhigh j (by omega)
  have hframe := carriesFrame_twoFrameWire s.wave s.params.tSettle gap bits0 bits1 flag0 flag1 later hlo hhi hcell
    hsettle hflag
  rw [← hwire] at hframe
  obtain ⟨t, ht, hread⟩ := hedge.read hrst hframe hsettle
  exact ⟨t, ht, hread.busy, hread.syncResult, hread.powered, hread.valValid, hread.mag, hread.std⟩

end Sys2Proof.Machine

/-! The line reader (spec/40_line_reader.md): the edge detector (R115) and the two level waits (R113, R114), which are
the transition rules of the states that wait (spec/41_frame_synchronizer.md R135, R136, R140;
spec/42_frame_decoder.md R173, R174). -/

namespace Sys2Proof.Machine

/-! ## The edge detector -/

/-- Settles O41: the edge returned is `falling_edge_t`, taken before the level is latched. -/
theorem fallingEdgeIsHighThenLow : Obligations.FallingEdgeIsHighThenLow := by
  intro s
  refine ⟨s.fallingEdge, exec_fallingEdge s, ?_⟩
  rw [State.fallingEdge, Bool.and_eq_true, Bool.not_eq_true']

/-! ## The level waits of the two state machines -/

section
variable {s : State}

theorem State.syncWaitHigh_of_passHi {k : Fin 24} (hs : s.sync = .passHi k) (hc : s.clk = true) :
    s.syncWaitHigh = { s with sync := .passLo k } := by
  simp [State.syncWaitHigh, hs, hc]

theorem State.syncWaitHigh_of_final (hs : s.sync = .final) (hc : s.clk = true) :
    s.syncWaitHigh = s.alignmentSuccess := by
  simp [State.syncWaitHigh, hs, hc]

theorem State.syncWaitLow_of_passLo {k : Fin 24} (hs : s.sync = .passLo k) (hc : s.clk = false) :
    s.syncWaitLow = { s with sync := afterCell k } := by
  simp [State.syncWaitLow, hs, hc]

theorem State.capWaitHigh_of_waitHi {k : Fin 24} (hw : s.cap = .waitHi k) (hc : s.clk = true) :
    s.capWaitHigh = { s with cap := .waitLo k } := by
  simp [State.capWaitHigh, hw, hc]

theorem State.capWaitLow_of_waitLo {k : Fin 24} (hw : s.cap = .waitLo k) (hc : s.clk = false) :
    s.capWaitLow = s.sampleBit k := by
  simp [State.capWaitLow, hw, hc]

theorem State.syncWaitHigh_unchanged (h : s.clk = false ∨ ((∀ k, s.sync ≠ .passHi k) ∧ s.sync ≠ .final)) :
    s.syncWaitHigh = s := by
  rcases s.syncWaitHigh_cases with ⟨hc, k, hk, -⟩ | ⟨hc, hf, -⟩ | ⟨-, e⟩
  · simp [hc, hk] at h
  · simp [hc, hf] at h
  · exact e

theorem State.syncWaitLow_unchanged (h : s.clk = true ∨ ∀ k, s.sync ≠ .passLo k) : s.syncWaitLow = s := by
  rcases s.syncWaitLow_cases with ⟨hc, k, hk, -⟩ | ⟨-, e⟩
  · simp [hc, hk] at h
  · exact e

theorem State.capWaitHigh_unchanged (h : s.clk = false ∨ ∀ k, s.cap ≠ .waitHi k) : s.capWaitHigh = s := by
  rcases h with hc | hn
  · rw [State.capWaitHigh, hc]
    rfl
  · cases hw : s.cap with
    | waitHi k => exact absurd hw (hn k)
    | _ => simp [State.capWaitHigh, hw]

theorem State.capWaitLow_unchanged (h : s.clk = true ∨ ∀ k, s.cap ≠ .waitLo k) : s.capWaitLow = s := by
  rcases h with hc | hn
  · rw [State.capWaitLow, hc]
    rfl
  · cases hw : s.cap with
    | waitLo k => exact absurd hw (hn k)
    | _ => simp [State.capWaitLow, hw]

/-! ## WAIT_HIGH and WAIT_LOW -/

/-- WAIT_HIGH changes nothing at a low clock line, nor where no such wait is held (R113). -/
theorem exec_waitHigh_unchanged (h : s.clk = false ∨ ((∀ k, s.sync ≠ .passHi k) ∧ s.sync ≠ .final ∧
    ¬(s.sync = .idle ∧ ∃ k, s.cap = .waitHi k))) : exec .waitHigh s = .next s := by
  rw [exec_waitHigh]
  split_ifs with hi
  · rw [State.capWaitHigh_unchanged (h.imp_right fun ⟨_, _, hn⟩ k hk => hn ⟨hi, k, hk⟩)]
  · rw [State.syncWaitHigh_unchanged (h.imp_right fun ⟨hp, hf, _⟩ => ⟨hp, hf⟩)]

/-- WAIT_LOW changes nothing at a high clock line, nor where no such wait is held (R114). -/
theorem exec_waitLow_unchanged (h : s.clk = true ∨ ((∀ k, s.sync ≠ .passLo k) ∧
    ¬(s.sync = .idle ∧ ∃ k, s.cap = .waitLo k))) : exec .waitLow s = .next s := by
  rw [exec_waitLow]
  split_ifs with hi
  · rw [State.capWaitLow_unchanged (h.imp_right fun ⟨_, hn⟩ k hk => hn ⟨hi, k, hk⟩)]
  · rw [State.syncWaitLow_unchanged (h.imp_right fun ⟨hp, _⟩ => hp)]

/-! ## The waits as transition rules -/

/-- A search in progress goes on. -/
theorem exec_findGap_of_search (hs : s.sync ≠ .idle) : exec .findGap s = .next s.searchTick := by
  rw [exec_findGap, if_neg fun hi => hs (s.isIdle_iff.mp hi).1]

/-- With neither timer fired a tick of a pass is its level wait (R137). -/
theorem State.passTick_of_unfired (hp : s.po.fired = false) (ha : s.al.fired = false) (w : State) :
    s.passTick w = w := by
  simp [State.passTick, hp, ha]

/-- A tick of a pass in a wait for high, and of the final wait (R135, R140). -/
theorem exec_findGap_eq_waitHigh (hp : s.po.fired = false) (ha : s.al.fired = false)
    (hs : (∃ k, s.sync = .passHi k) ∨ s.sync = .final) : exec .findGap s = exec .waitHigh s := by
  have hpass : s.sync ≠ .idle ∧ s.searchTick = s.passTick s.syncWaitHigh := by
    rcases hs with ⟨k, hk⟩ | hf
    · simp [State.searchTick, hk]
    · simp [State.searchTick, hf]
  obtain ⟨hne, htick⟩ := hpass
  rw [exec_findGap_of_search hne, exec_waitHigh, if_neg hne, htick, State.passTick_of_unfired hp ha]

/-- A tick of a pass in a wait for low (R136). -/
theorem exec_findGap_eq_waitLow (hp : s.po.fired = false) (ha : s.al.fired = false) {k : Fin 24}
    (hk : s.sync = .passLo k) : exec .findGap s = exec .waitLow s := by
  have hne : s.sync ≠ .idle := by simp [hk]
  have htick : s.searchTick = s.passTick s.syncWaitLow := by simp [State.searchTick, hk]
  rw [exec_findGap_of_search hne, exec_waitLow, if_neg hne, htick, State.passTick_of_unfired hp ha]

/-- The sampler's wait for high (R173). -/
theorem exec_capture_eq_waitHigh (hs : s.sync = .idle) {k : Fin 24} (hk : s.cap = .waitHi k) :
    exec .capture s = exec .waitHigh s := by
  have htick : s.captureTick = s.capWaitHigh := by simp [State.captureTick, hk]
  rw [exec_capture, if_pos hs, exec_waitHigh, if_pos hs, htick]

/-- The sampler's wait for low (R174). -/
theorem exec_capture_eq_waitLow (hs : s.sync = .idle) {k : Fin 24} (hk : s.cap = .waitLo k) :
    exec .capture s = exec .waitLow s := by
  have htick : s.captureTick = s.capWaitLow := by simp [State.captureTick, hk]
  rw [exec_capture, if_pos hs, exec_waitLow, if_pos hs, htick]

end

/-- Settles O43: neither timer comes before the wait of a pass, and the sampler's wait has none. -/
theorem waitsAreTheTransitionsOfTheirStates : Obligations.WaitsAreTheTransitionsOfTheirStates :=
  ⟨fun _ hp ha hs => exec_findGap_eq_waitHigh hp ha hs, fun _ hp ha ⟨_, hk⟩ => exec_findGap_eq_waitLow hp ha hk,
    fun _ hs ⟨_, hk⟩ => exec_capture_eq_waitHigh hs hk, fun _ hs ⟨_, hk⟩ => exec_capture_eq_waitLow hs hk⟩

/-! ## The end of a wait -/

/-- Cell 23 leads to the final wait, any other to the next cell (R136). -/
theorem afterCell_eq_ite (k : Fin 24) : afterCell k = if k = 23 then .final else .passHi (k + 1) := by
  rcases afterCell_cases k with ⟨hk, e⟩ | ⟨hk, e⟩
  · rw [e, if_pos hk]
  · rw [e, if_neg hk]

/-- Bit 23 leads to the settle delay, any other to the next bit (R174, R179). -/
theorem State.sampleBit_cap (s : State) (k : Fin 24) :
    (s.sampleBit k).cap = if k = 23 then .settle else .enter (k + 1) := by
  rcases s.sampleBit_cases k with ⟨hk, e⟩ | ⟨hk, e⟩
  · rw [e, if_neg hk]
  · rw [e, if_pos hk]

/-- Settles O42: the state held says whose wait it is and where its end leads; the other level, and a state with no
such wait, leave it. -/
theorem levelWaitsEndAtTheAwaitedLevel : Obligations.LevelWaitsEndAtTheAwaitedLevel := by
  refine ⟨fun s hc => exec_waitHigh_unchanged (.inl hc),
    fun s k hc => ⟨fun hs => ?_, fun hs => ?_, fun hs hw => ?_⟩,
    fun s hp hf hw => exec_waitHigh_unchanged (.inr ⟨hp, hf, hw⟩),
    fun s hc => exec_waitLow_unchanged (.inl hc),
    fun s k hc => ⟨fun hs => ?_, fun hs hw => ?_⟩,
    fun s hp hw => exec_waitLow_unchanged (.inr ⟨hp, hw⟩)⟩
  · rw [exec_waitHigh, if_neg (by simp [hs]), State.syncWaitHigh_of_passHi hs hc]
  · rw [exec_waitHigh, if_neg (by simp [hs]), State.syncWaitHigh_of_final hs hc, State.alignmentSuccess]
  · rw [exec_waitHigh, if_pos hs, State.capWaitHigh_of_waitHi hw hc]
  · rw [exec_waitLow, if_neg (by simp [hs]), State.syncWaitLow_of_passLo hs hc, afterCell_eq_ite]
  · have hlow : exec .waitLow s = .next (s.sampleBit k) := by
      rw [exec_waitLow, if_pos hs, State.capWaitLow_of_waitLo hw hc]
    exact ⟨_, hlow, (exec_capture_eq_waitLow hs hw).trans hlow, s.sampleBit_cap k⟩

end Sys2Proof.Machine

/-! FIND_GAP tick by tick (spec/41_frame_synchronizer.md R130 to R149): its acceptance, the order of the tests in a tick
of a search (R137), and what it leaves to the capture side. -/

namespace Sys2Proof.Machine

section
variable {s : State}

/-! ## The tick of a search, state by state -/

theorem State.searchTick_of_idle (hs : s.sync = .idle) : s.searchTick = s := by
  simp [State.searchTick, hs]

/-- In a pass and in the final wait the timers come before a level wait (R137). -/
theorem State.searchTick_of_inPass (hs : s.sync.inPass = true) : ∃ wait, s.searchTick = s.passTick wait := by
  unfold State.searchTick
  cases hr : s.sync with
  | passHi k => exact ⟨s.syncWaitHigh, rfl⟩
  | passLo k => exact ⟨s.syncWaitLow, rfl⟩
  | final => exact ⟨s.syncWaitHigh, rfl⟩
  | idle | retry | prepos => simp [hr, SyncReg.inPass] at hs

/-- The retry sleep goes on, or ends at the top of Searching (R141, R142). -/
theorem State.searchTick_of_retry (hs : s.sync = .retry) :
    s.searchTick = if s.sl.fired then State.startPass { s with sl := .stopped } else s := by
  simp [State.searchTick, hs]

/-- The pre-positioning sleep goes on, or ends the search (R144, R145). -/
theorem State.searchTick_of_prepos (hs : s.sync = .prepos) :
    s.searchTick = if s.sl.fired then s.completeSearch else s := by
  simp [State.searchTick, hs]

theorem SyncReg.ne_of_inPass {r q : SyncReg} (hr : r.inPass = true) (hq : q.inPass = false) : r ≠ q := by
  rintro rfl
  simp [hr] at hq

theorem State.busy_eq_false_iff (s : State) : s.busy = false ↔ s.isIdle = true := by
  simp [State.busy]

/-! ## The exits and the sleeps -/

theorem exec_findGap_of_inPass (hs : s.sync.inPass = true) :
    ∃ wait, exec .findGap s = .next (s.passTick wait) := by
  obtain ⟨wait, htick⟩ := State.searchTick_of_inPass hs
  exact ⟨wait, by rw [exec_findGap_of_search (SyncReg.ne_of_inPass hs rfl), htick]⟩

theorem exec_findGap_of_retry (hs : s.sync = .retry) :
    exec .findGap s = .next (if s.sl.fired then State.startPass { s with sl := .stopped } else s) := by
  rw [exec_findGap_of_search (by simp [hs]), State.searchTick_of_retry hs]

theorem exec_findGap_of_prepos (hs : s.sync = .prepos) :
    exec .findGap s = .next (if s.sl.fired then s.completeSearch else s) := by
  rw [exec_findGap_of_search (by simp [hs]), State.searchTick_of_prepos hs]

/-- A fired power-off timer ends the retry sleep's search instead of a new pass (R138, R142). -/
theorem exec_findGap_of_retry_timedOut (hs : s.sync = .retry) (hl : s.sl.fired = true) (hp : s.po.fired = true) :
    exec .findGap s = .next s.powerOffExit := by
  rw [exec_findGap_of_retry hs, if_pos hl, State.startPass, if_pos hp]
  rfl

/-- The power-off exit has its three places and is taken before anything else there (R138, R253). -/
theorem exec_findGap_of_timedOut (hp : s.po.fired = true)
    (hs : s.sync.inPass = true ∨ (s.sync = .retry ∧ s.sl.fired = true)) :
    exec .findGap s = .next s.powerOffExit := by
  rcases hs with hpass | ⟨hretry, hl⟩
  · obtain ⟨wait, hexec⟩ := exec_findGap_of_inPass hpass
    rw [hexec, State.passTick, if_pos hp]
  · exact exec_findGap_of_retry_timedOut hretry hl hp

end

/-- Settles O13: the power-off timer just armed has time to go, so the pass begins. -/
theorem findGapIsAccepted : Obligations.FindGapIsAccepted := by
  intro s hb hp
  rw [exec_findGap, if_pos (s.busy_eq_false_iff.mp hb), State.acceptFindGap_eq hp]

/-- Settles O14: the exit leaves the search idle, and no reading is in progress unless one was. -/
theorem powerOffTimerEndsTheSearch : Obligations.PowerOffTimerEndsTheSearch := by
  intro s hp hs
  exact ⟨s.powerOffExit, exec_findGap_of_timedOut hp hs, rfl, rfl, fun hc =>
    (State.busy_eq_false_iff _).mpr ((State.isIdle_iff _).mpr ⟨rfl, hc⟩)⟩

/-- Settles O15: the alignment timer is tested after the power-off timer and before the line. -/
theorem alignmentTimerMakesThePassMisaligned : Obligations.AlignmentTimerMakesThePassMisaligned := by
  intro s hs hp ha
  obtain ⟨wait, hexec⟩ := exec_findGap_of_inPass hs
  rw [hexec, State.passTick, if_neg (by simp [hp]), if_pos ha, State.misalignmentExit]

/-- Settles O16: with neither timer fired the tick is the level wait of the pass. -/
theorem passCountsCellsByTheClockLevel : Obligations.PassCountsCellsByTheClockLevel := by
  intro s k hp ha
  refine ⟨fun hs => ?_, fun hs => ?_⟩
  · rw [exec_findGap_eq_waitHigh hp ha (.inl ⟨k, hs⟩), exec_waitHigh, if_neg (by simp [hs])]
    split_ifs with hc
    · rw [State.syncWaitHigh_of_passHi hs hc]
    · rw [State.syncWaitHigh_unchanged (.inl (by simpa using hc))]
  · rw [exec_findGap_eq_waitLow hp ha hs, exec_waitLow, if_neg (by simp [hs])]
    split_ifs with hc hk
    · rw [State.syncWaitLow_unchanged (.inl hc)]
    · rw [State.syncWaitLow_of_passLo hs (by simpa using hc), afterCell_eq_ite, if_pos hk]
    · rw [State.syncWaitLow_of_passLo hs (by simpa using hc), afterCell_eq_ite, if_neg hk]

/-- Settles O17: with neither timer fired the tick is the wait for the return to high. -/
theorem finalWaitEndsInAlignmentSuccess : Obligations.FinalWaitEndsInAlignmentSuccess := by
  intro s hs hp ha
  rw [exec_findGap_eq_waitHigh hp ha (.inr hs), exec_waitHigh, if_neg (by simp [hs])]
  split_ifs with hc
  · rw [State.syncWaitHigh_of_final hs hc, State.alignmentSuccess]
  · rw [State.syncWaitHigh_unchanged (.inl (by simpa using hc))]

/-- Settles O18: the sleep's timer is tested first, then the power-off timer. -/
theorem topOfSearchingTestsThePowerOffTimer : Obligations.TopOfSearchingTestsThePowerOffTimer := by
  refine ⟨fun s hs hl => ?_, fun s hs hl hp => exec_findGap_of_retry_timedOut hs hl hp, fun s hs hl hp => ?_⟩
  · rw [exec_findGap_of_retry hs, if_neg (by simp [hl])]
  · rw [exec_findGap_of_retry hs, if_pos hl, State.startPass, if_neg (by simp [hp])]

/-- Settles O19: in the sleep the caliper counts as powered and no reading is in progress, by the invariant. -/
theorem prePositioningSleepEndsAligned : Obligations.PrePositioningSleepEndsAligned := by
  refine ⟨fun s hs hl => ?_, fun s h hs hl => ⟨s.completeSearch, ?_, rfl, ?_, ?_⟩⟩
  · rw [exec_findGap_of_prepos hs, if_neg (by simp [hl])]
  · rw [exec_findGap_of_prepos hs, if_pos hl]
  · have hc : s.cap = .idle := h.cap_idle (by simp [hs])
    exact (State.busy_eq_false_iff _).mpr ((State.isIdle_iff _).mpr ⟨rfl, hc⟩)
  · simp [State.powered, h.preposOn hs]

/-! ## What FIND_GAP leaves -/

/-- The acceptance leaves the capture side (R149). -/
theorem State.acceptFindGap_captureSide (s : State) :
    s.acceptFindGap.cap = s.cap ∧ s.acceptFindGap.raw = s.raw ∧ s.acceptFindGap.acc = s.acc ∧
      s.acceptFindGap.cpo = s.cpo ∧ s.acceptFindGap.bw = s.bw := by
  unfold State.acceptFindGap
  rcases State.startPass_cases { s with syncResult := .noResult, po := .running s.params.tPowerOff } with
    ⟨_, e⟩ | ⟨_, e⟩ <;> rw [e] <;> exact ⟨rfl, rfl, rfl, rfl, rfl⟩

/-- Settles O20: an acceptance, a reading in progress, or a tick of the search. -/
theorem findGapLeavesTheCaptureSide : Obligations.FindGapLeavesTheCaptureSide := by
  intro s t ht
  rw [exec_findGap] at ht
  obtain rfl := Host.Outcome.next.inj ht
  split_ifs with hi
  · obtain ⟨hcap, hraw, hacc, hcpo, hbw⟩ := s.acceptFindGap_captureSide
    obtain ⟨hmag, hstd, hvalid⟩ := s.acceptFindGap_measurement
    exact ⟨⟨hcap, hraw, hacc, hmag, hstd, hvalid, s.acceptFindGap_clkPrev, hcpo, hbw, s.acceptFindGap_params,
      s.acceptFindGap_wave, s.acceptFindGap_host, s.acceptFindGap_lines, s.acceptFindGap_returned⟩,
      fun _ hc => absurd (s.isIdle_iff.mp hi).2 hc⟩
  · by_cases hs : s.sync = .idle
    · rw [State.searchTick_of_idle hs]
      simp
    · obtain ⟨hcap, hraw, hacc, hmag, hstd, hvalid, hcpo, hbw⟩ := (State.searchTick_searchStep hs).captureSide
      exact ⟨⟨hcap, hraw, hacc, hmag, hstd, hvalid, s.searchTick_clkPrev, hcpo, hbw, s.searchTick_params,
        s.searchTick_wave, s.searchTick_host, s.searchTick_lines, s.searchTick_returned⟩,
        fun hs' => absurd hs' hs⟩

end Sys2Proof.Machine

/-! The ends of a search (spec/41_frame_synchronizer.md R146, R148; spec/70_reset_and_hazards.md R300, R305). -/

namespace Sys2Proof.Machine

/-! ## A run has one state at each tick -/

theorem After.unique {n : Nat} {s t u : State} (ht : After n s t) (hu : After n s u) : t = u :=
  Host.Outcome.next.inj (((after_iff_run n s t).mp ht).symm.trans ((after_iff_run n s u).mp hu))

/-! ## How long a search can go on -/

/-- The last tick, counted from the acceptance, that a sleep can reach: the power-off timer has not fired where the sleep
begins. -/
def SyncReg.sleepBound (r : SyncReg) (p : Params) : Nat :=
  match r with
  | .retry => p.tPowerOff + p.tRetry
  | .prepos => p.tPowerOff + p.tPrepos
  | .idle => 0
  | .passHi _ => 0
  | .passLo _ => 0
  | .final => 0

/-- A search in progress `n` ticks after the acceptance. The power-off timer has counted all of them; a pass goes on only
while it has time to go, and a sleep that began in such a tick ends within its own duration. -/
structure SearchingSince (n : Nat) (s : State) : Prop where
  sync : s.sync ≠ .idle
  cap : s.cap = .idle
  po : s.sync ≠ .prepos → s.po = .running (s.params.tPowerOff + 1 - n)
  pass : s.sync.inPass = true → n ≤ s.params.tPowerOff
  sleep : s.sync = .retry ∨ s.sync = .prepos → ∃ b, s.sl = .running b ∧ 1 ≤ b ∧ n + b ≤ s.sync.sleepBound s.params
  prepos : s.sync = .prepos → s.powered = true

/-- The end of a search `n` ticks after the acceptance, with its result and its bound (R146). -/
structure SearchEnded (n : Nat) (s : State) : Prop where
  idle : s.isIdle = true
  result : (s.syncResult = .aligned ∧ s.powered = true ∧ n ≤ s.params.tPowerOff + s.params.tPrepos) ∨
    (s.syncResult = .powerOff ∧ s.powered = false ∧
      s.params.tPowerOff + 1 ≤ n ∧ n ≤ s.params.tPowerOff + s.params.tRetry)

section
variable {n : Nat} {s : State}

theorem SearchingSince.busy (h : SearchingSince n s) : s.busy = true := s.busy_iff.mpr fun hi => h.sync hi.1

/-- No search lasts longer than its power-off time and the two sleeps together. -/
theorem SearchingSince.le (h : SearchingSince n s) :
    n ≤ s.params.tPowerOff + s.params.tRetry + s.params.tPrepos := by
  have hsleep := h.sleep
  have hpass := h.pass
  cases hs : s.sync with
  | idle => exact absurd hs h.sync
  | retry | prepos =>
    obtain ⟨b, -, -, hb⟩ := hsleep (by simp [hs])
    simp only [hs, SyncReg.sleepBound] at hb
    omega
  | passHi | passLo | final =>
    have := hpass (by rw [hs]; rfl)
    omega

/-- A search that goes on in a pass does so before its power-off time is over. -/
theorem SearchingSince.of_inPass (hpass : s.sync.inPass = true) (hcap : s.cap = .idle)
    (hpo : s.po = .running (s.params.tPowerOff + 1 - n)) (hn : n ≤ s.params.tPowerOff) : SearchingSince n s where
  sync := SyncReg.ne_of_inPass hpass rfl
  cap := hcap
  po _ := hpo
  pass _ := hn
  sleep hs := hs.elim (absurd · (SyncReg.ne_of_inPass hpass rfl)) (absurd · (SyncReg.ne_of_inPass hpass rfl))
  prepos hs := absurd hs (SyncReg.ne_of_inPass hpass rfl)

/-- A search that sleeps has the rest of its sleep to go. -/
theorem SearchingSince.of_sleep {b : Nat} (hs : s.sync = .retry ∨ s.sync = .prepos) (hcap : s.cap = .idle)
    (hpo : s.sync ≠ .prepos → s.po = .running (s.params.tPowerOff + 1 - n)) (hsl : s.sl = .running b) (hpos : 1 ≤ b)
    (hb : n + b ≤ s.sync.sleepBound s.params) (hon : s.sync = .prepos → s.powered = true) : SearchingSince n s where
  sync := by rcases hs with hs | hs <;> simp [hs]
  cap := hcap
  po := hpo
  pass hpass := hs.elim (absurd · (SyncReg.ne_of_inPass hpass rfl)) (absurd · (SyncReg.ne_of_inPass hpass rfl))
  sleep _ := ⟨b, hsl, hpos, hb⟩
  prepos := hon

/-! ## One tick of a search, counted from the acceptance -/

theorem SearchingSince.countdown_po (h : SearchingSince n s) (hs : s.sync ≠ .prepos) :
    s.countdown.po = .running (s.params.tPowerOff + 1 - (n + 1)) := by
  rw [State.countdown_po, h.po hs]
  rfl

/-- The power-off timer is fired when its time is over (R49). -/
theorem SearchingSince.po_fired (h : SearchingSince n s) (hs : s.sync ≠ .prepos) :
    s.countdown.po.fired = decide (s.params.tPowerOff ≤ n) := by
  rw [h.countdown_po hs, Timer.fired_running]
  exact decide_eq_decide.mpr (by omega)

theorem SearchingSince.inTime (h : SearchingSince n s) (hs : s.sync ≠ .prepos) (hp : s.countdown.po.fired = false) :
    n + 1 ≤ s.params.tPowerOff := by
  rw [h.po_fired hs, decide_eq_false_iff_not] at hp
  omega

/-- The power-off exit is taken when the power-off time is over, and at the latest at the end of a retry sleep
(R138, R305). -/
theorem SearchingSince.ended_of_exit (h : SearchingSince n s) (hretry : 1 ≤ s.params.tRetry)
    (hp : s.countdown.po.fired = true) (hs : s.sync.inPass = true ∨ s.sync = .retry) :
    SearchEnded (n + 1) s.countdown.powerOffExit := by
  have hne : s.sync ≠ .prepos := hs.elim (SyncReg.ne_of_inPass · rfl) (ne_of_eq_of_ne · nofun)
  have hover : s.params.tPowerOff ≤ n := by rwa [h.po_fired hne, decide_eq_true_eq] at hp
  have hlast : n + 1 ≤ s.params.tPowerOff + s.params.tRetry := by
    rcases hs with hpass | hs
    · have := h.pass hpass
      omega
    · obtain ⟨b, -, hpos, hb⟩ := h.sleep (.inl hs)
      rw [hs, SyncReg.sleepBound] at hb
      omega
  exact ⟨(State.isIdle_iff _).mpr ⟨rfl, h.cap⟩, .inr ⟨rfl, rfl, Nat.succ_le_succ hover, hlast⟩⟩

/-- The end of the pre-positioning sleep keeps its bound (R145). -/
theorem SearchingSince.ended_of_prepos (h : SearchingSince n s) (hs : s.sync = .prepos) :
    SearchEnded (n + 1) s.countdown.completeSearch := by
  obtain ⟨b, -, hpos, hb⟩ := h.sleep (.inr hs)
  rw [hs, SyncReg.sleepBound] at hb
  have hlast : n + 1 ≤ s.params.tPowerOff + s.params.tPrepos := by omega
  exact ⟨(State.isIdle_iff _).mpr ⟨rfl, h.cap⟩, .inl ⟨rfl, h.prepos hs, hlast⟩⟩

/-- A sleep whose timer has not fired goes on (R141, R144). -/
theorem SearchingSince.asleep (h : SearchingSince n s) (hs : s.sync = .retry ∨ s.sync = .prepos)
    (hl : s.countdown.sl.fired = false) : SearchingSince (n + 1) s.countdown := by
  obtain ⟨b, hsl, -, hb⟩ := h.sleep hs
  have hleft : s.countdown.sl = .running (b - 1) := by rw [State.countdown_sl, hsl]; rfl
  rw [hleft, Timer.fired_running, decide_eq_false_iff_not] at hl
  have hlast : n + 1 + (b - 1) ≤ s.sync.sleepBound s.params := by omega
  exact .of_sleep hs h.cap h.countdown_po hleft (by omega) hlast h.prepos

/-- The tick of a search `n` ticks after the acceptance keeps its bounds, or ends it within them. -/
theorem SearchingSince.searchStep {t : State} (h : SearchingSince n s) (hretry : 1 ≤ s.params.tRetry)
    (hprepos : 1 ≤ s.params.tPrepos) (ht : SearchStep s.countdown t) :
    SearchingSince (n + 1) t ∨ SearchEnded (n + 1) t := by
  have hne : s.sync.inPass = true → s.sync ≠ .prepos := fun hs => SyncReg.ne_of_inPass hs rfl
  cases ht with
  | exit hp hs => exact .inr (h.ended_of_exit hretry hp (hs.imp_right And.left))
  | misaligned hs hp =>
    have hn := h.inTime (hne hs) hp
    exact .inl (.of_sleep (.inl rfl) h.cap (fun _ => h.countdown_po (hne hs)) rfl hretry
      (Nat.add_le_add_right hn _) nofun)
  | success hs hp =>
    have hn := h.inTime (hne (congrArg SyncReg.inPass hs)) hp
    exact .inl (.of_sleep (.inr rfl) h.cap (absurd rfl) rfl hprepos (Nat.add_le_add_right hn _) fun _ => rfl)
  | waiting hs hp _ _ r hr => exact .inl (.of_inPass hr h.cap (h.countdown_po (hne hs)) (h.inTime (hne hs) hp))
  | newPass hs _ hp =>
    have hs : s.sync ≠ .prepos := ne_of_eq_of_ne hs nofun
    exact .inl (.of_inPass rfl h.cap (h.countdown_po hs) (h.inTime hs hp))
  | aligned hs => exact .inr (h.ended_of_prepos hs)
  | asleep hs hl => exact .inl (h.asleep hs hl)

/-- One tick of it (R130). The end of the tick writes no register that the bounds speak of. -/
theorem SearchingSince.step (h : SearchingSince n s) (hr : s.hostNow.rst = false) (hretry : 1 ≤ s.params.tRetry)
    (hprepos : 1 ≤ s.params.tPrepos) : ∃ t, step s = .next t ∧ (SearchingSince (n + 1) t ∨ SearchEnded (n + 1) t) :=
  ⟨_, step_of_search s hr h.sync, (h.searchStep hretry hprepos (State.searchTick_searchStep h.sync)).imp
    (fun hu => { hu with }) (fun hu => { hu with })⟩

/-- The acceptance begins a search (R132). -/
theorem SearchingSince.of_findGap (hi : s.isIdle = true) (hr : s.hostNow.rst = false) (hcmd : s.hostNow.cmd = 1#2)
    (hp : 1 ≤ s.params.tPowerOff) : ∃ t, Machine.step s = .next t ∧ SearchingSince 1 t := by
  obtain ⟨t, ht, h⟩ := step_of_findGap hi hr hcmd hp
  have hpar := step_params ht
  exact ⟨t, ht, .of_inPass (by rw [h.sync]; rfl) h.cap (by rw [h.po, hpar]; rfl) (by rwa [hpar])⟩

end

/-! ## A search ends -/

theorem Inv.one_le_tRetry {s : State} (h : Inv s) : 1 ≤ s.params.tRetry := by
  have hw := h.params
  simp only [Params.wf, Bool.and_eq_true, decide_eq_true_eq] at hw
  omega

/-- A search goes on at most `T_POWEROFF + T_RETRY + T_PREPOS` ticks, so there is a first tick after which it does not,
and that one ends it. -/
theorem Reaches.first_ended {s : State} (hrst : s.noReset) (hretry : 1 ≤ s.params.tRetry)
    (hprepos : 1 ≤ s.params.tPrepos) (hstart : Reaches s 1 (SearchingSince 1)) :
    ∃ n, Reaches s (n + 1) (SearchEnded (n + 1)) ∧ ∀ m, 1 ≤ m → m ≤ n → Reaches s m (SearchingSince m) := by
  classical
  have hbounded : ∃ n, ¬Reaches s (n + 1) (SearchingSince (n + 1)) := by
    refine ⟨s.params.tPowerOff + s.params.tRetry + s.params.tPrepos, ?_⟩
    rintro ⟨t, ht, h⟩
    have hle := h.le
    rw [ht.environment.2.2] at hle
    omega
  obtain ⟨n, hn⟩ := Nat.exists_eq_succ_of_ne_zero (mt (Nat.find_eq_zero hbounded).mp (not_not_intro hstart))
  have hbefore : ∀ m, 1 ≤ m → m ≤ n + 1 → Reaches s m (SearchingSince m) := by
    intro m hm hmn
    obtain ⟨m, rfl⟩ := Nat.exists_eq_add_of_le' hm
    exact not_not.mp (Nat.find_min hbounded (by omega))
  have hlast := Nat.find_spec hbounded
  rw [hn] at hlast
  have hnext := (hbefore (n + 1) (by omega) le_rfl).next fun t ht h =>
    h.step (hrst.after ht) (by rwa [ht.environment.2.2]) (by rwa [ht.environment.2.2])
  obtain ⟨t, ht, hsearch | hended⟩ := hnext
  · exact absurd ⟨t, ht, hsearch⟩ hlast
  · exact ⟨n + 1, ⟨t, ht, hended⟩, hbefore⟩

/-- Settles O21: the search ends within its bounds, and the block is busy as long as it goes on. -/
theorem everySearchEndsInTime : Obligations.EverySearchEndsInTime := by
  intro s h hrst hb hcmd
  have hstart : Reaches s 1 (SearchingSince 1) := (Reaches.start (p := (· = s)) rfl).next fun t _ ht => by
    rw [show t = s from ht]
    exact SearchingSince.of_findGap (s.busy_eq_false_iff.mp hb) (hrst 0) hcmd h.one_le_tPowerOff
  obtain ⟨n, ⟨t, ht, hended⟩, hbefore⟩ := Reaches.first_ended hrst h.one_le_tRetry h.one_le_tPrepos hstart
  have hresult := hended.result
  rw [ht.environment.2.2] at hresult
  refine ⟨n + 1, t, ht, t.busy_eq_false_iff.mpr hended.idle, by omega, fun m u hm hmn hu => ?_, hresult⟩
  obtain ⟨v, hv, hsearch⟩ := hbefore m hm (by omega)
  rw [hu.unique hv]
  exact hsearch.busy

/-! ## A search begun before a whole frame -/

section
variable (w : Waveform) (tSettle : Nat) (bits : RawFrame) (flag : Level) (later : Feed LineIn)

/-- A burst on a feed that lists a transmission begins after the rest of the silence. -/
theorem Feed.nth_listing_frameRuns {n : Nat} {v : LineIn} {b : Bool}
    (h : Presents (burstRuns w tSettle bits flag) n v b) :
    (Feed.listing (frameRuns w tSettle bits flag) later).nth LineIn.choice (w.lead tSettle + n) = v :=
  Feed.nth_listing LineIn.choice (Presents.tail (r := ⟨.silence, w.lead tSettle⟩) h).level later

theorem Feed.nth_listing_frameRuns_lead {n : Nat} (h : n < w.lead tSettle) :
    (Feed.listing (frameRuns w tSettle bits flag) later).nth LineIn.choice n = .silence :=
  Feed.nth_listing LineIn.choice (Presents.head (r := ⟨.silence, w.lead tSettle⟩) h).level later

end

/-- Settles O22: the levels up to the return to high are the frame's, whatever follows, and both timers have time to
go until then. -/
theorem searchAlignsOnOneWholeFrame : Obligations.SearchAlignsOnOneWholeFrame := by
  intro s bits flag later lead h hrst hb hcmd hlo hhi hhold hlines hlead halign hpower
  have hwire : ∀ {n v b}, Presents (burstRuns s.wave s.params.tSettle bits flag) n v b →
      s.linesAt (lead + n) = v := fun hn => by
    rw [State.linesAt, hlines]
    exact Feed.nth_listing_frameRuns s.wave s.params.tSettle bits flag later hn
  have hsilence : ∀ i, i < lead → (s.linesAt i).clk = true := fun i hi => by
    rw [State.linesAt, hlines, Feed.nth_listing_frameRuns_lead s.wave s.params.tSettle bits flag later hi]
    rfl
  have hclock : CarriesClock s.wave s.linesAt lead := .of_burst h.one_le_tSettle fun n v b hn => by rw [hwire hn]
  have hreturn : (s.linesAt (lead + s.wave.frameTicks)).clk = true :=
    congrArg LineIn.clk (hwire (presents_burstRuns_hold s.wave s.params.tSettle bits flag 0 hhold))
  obtain ⟨t, ht, haligned⟩ := Reaches.aligned hrst hlo hhi hclock ⟨by omega, hpower⟩ h
    (s.busy_eq_false_iff.mp hb) hcmd hlead hsilence hreturn
  refine ⟨t, ht, t.busy_eq_false_iff.mpr (t.isIdle_iff.mpr ⟨haligned.sync, haligned.cap⟩), haligned.syncResult, ?_⟩
  rw [State.powered, haligned.power]
  rfl

end Sys2Proof.Machine

/-! The capture tick by tick (spec/42_frame_decoder.md R170 to R185): the trigger, the states of a bit, the sample, the
settle delay and the completion step, and what READ_VALUE and CAPTURE leave to the search. -/

namespace Sys2Proof.Machine

section
variable {s : State} {k : Fin 24}

/-! ## A capture, state by state -/

theorem exec_capture_of_sync_idle (hs : s.sync = .idle) : exec .capture s = .next s.captureTick := by
  rw [exec_capture, if_pos hs]

theorem exec_capture_of_search (hs : s.sync ≠ .idle) : exec .capture s = .next s := by
  rw [exec_capture, if_neg hs]

theorem exec_readValue_of_search (hs : s.sync ≠ .idle) : exec .readValue s = .next s := by
  rw [exec_readValue, if_neg fun hi => hs (s.isIdle_iff.mp hi).1, if_neg hs]

theorem exec_readValue_of_armed (hs : s.sync = .idle) (ha : s.cap = .armed) :
    exec .readValue s = .next s.armedTick := by
  have hi : ¬s.isIdle = true := by simp [State.isIdle, ha]
  rw [exec_readValue, if_neg hi, if_pos hs, if_pos ha]

theorem exec_readValue_of_capture (hs : s.sync = .idle) (hc : s.cap ≠ .idle) (ha : s.cap ≠ .armed) :
    exec .readValue s = .next s.captureTick := by
  rw [exec_readValue, if_neg fun hi => hc (s.isIdle_iff.mp hi).2, if_pos hs, if_neg ha]

theorem State.captureTick_of_idle (hc : s.cap = .idle) : s.captureTick = s := by
  simp [State.captureTick, hc]

theorem State.captureTick_of_armed (hc : s.cap = .armed) :
    s.captureTick = if s.fallingEdge then s.captureStart else s := by
  simp [State.captureTick, hc]

theorem State.armedTick_of_edge (he : s.fallingEdge = true) : s.armedTick = s.captureStart := by
  simp [State.armedTick, he]

theorem State.captureTick_of_enter (hc : s.cap = .enter k) : s.captureTick = { s with cap := .waitHi k } := by
  simp [State.captureTick, hc]

theorem State.captureTick_of_unsettled (hc : s.cap = .settle) (hb : s.bw.fired = false) : s.captureTick = s := by
  simp [State.captureTick, hc, hb]

theorem exec_capture_of_waitHi (hs : s.sync = .idle) (hc : s.cap = .waitHi k) :
    exec .capture s = .next (if s.clk then { s with cap := .waitLo k } else s) := by
  rw [exec_capture_eq_waitHigh hs hc, exec_waitHigh, if_pos hs]
  cases h : s.clk
  · rw [State.capWaitHigh_unchanged (.inl h)]; rfl
  · rw [State.capWaitHigh_of_waitHi hc h]; rfl

theorem exec_capture_of_sample (hs : s.sync = .idle) (hc : s.cap = .waitLo k) (h : s.clk = false) :
    exec .capture s = .next (s.sampleBit k) := by
  rw [exec_capture_eq_waitLow hs hc, exec_waitLow, if_pos hs, State.capWaitLow_of_waitLo hc h]

theorem State.crit_iff (s : State) : s.crit = true ↔ ∃ k, s.cap = .waitHi k ∨ s.cap = .waitLo k := by
  cases h : s.cap <;> simp [State.crit, h]

end

/-! ## The sample -/

/-- The sample of a bit, with its two ways on (R174 to R179). -/
theorem State.sampleBit_eq (s : State) (k : Fin 24) : s.sampleBit k =
    { s with raw := storeBit s.raw k s.data, acc := foldBit s.acc k s.data,
             bw := if k = 23 then .running s.params.tSettle else s.bw,
             cap := if k = 23 then .settle else .enter (k + 1) } := by
  rcases s.sampleBit_cases k with ⟨hk, e⟩ | ⟨hk, e⟩
  · rw [e, if_neg hk, if_neg hk]
  · rw [e, if_pos hk, if_pos hk]

/-- Below index 16 the level is or-ed into the accumulator at its bit (R176). -/
theorem foldBit_low_getLsbD (acc : Half) {k : Nat} (d : Level) (j : Nat) (hk : k < 16) :
    (foldBit acc k d).getLsbD j = (acc.getLsbD j || (decide (j = k) && d)) := by
  have hj : (j = k ∧ j < 16) ↔ j = k := by omega
  rw [foldBit_low acc k d hk, BitVec.getLsbD_or, zext16_shiftLeft_getLsbD]
  simp only [hj]

/-- Settles O26: the bits of `storeBit` and `foldBit`, on both sides of index 16. -/
theorem sampleStoresItsBitOnly : Obligations.SampleStoresItsBitOnly := by
  intro s k hs hc hclk
  refine ⟨_, exec_capture_of_sample hs hc hclk, ?_⟩
  rw [State.sampleBit_eq]
  refine ⟨storeBit_getLsbD s.raw k s.data, fun hk => ⟨fun j => foldBit_low_getLsbD s.acc s.data j hk, fun h0 j => ?_⟩,
    foldBit_high s.acc k s.data⟩
  have hj : (j = k.val ∧ j < 16) ↔ j = k.val := by omega
  rw [foldBit_getLsbD s.acc k s.data j h0]
  simp only [hj]

/-! ## The states of a bit -/

/-- Settles O25: `C_ENTER` lasts one tick, and the two waits are those of the line reader. -/
theorem captureWaitsThenSamples : Obligations.CaptureWaitsThenSamples := by
  refine fun s k hs => ⟨fun hc => ⟨?_, ?_⟩, fun hc => ⟨?_, exec_capture_of_waitHi hs hc⟩,
    fun hc => ⟨?_, fun hclk => ?_, fun hclk => ?_⟩⟩
  · rw [State.crit, hc]
  · rw [exec_capture_of_sync_idle hs, State.captureTick_of_enter hc]
  · exact s.crit_iff.mpr ⟨k, .inl hc⟩
  · exact s.crit_iff.mpr ⟨k, .inr hc⟩
  · rw [exec_capture_eq_waitLow hs hc, exec_waitLow_unchanged (.inl hclk)]
  · rw [exec_capture_of_sample hs hc hclk, State.sampleBit_eq]

/-- A tick in which `crit` falls is a sample tick (R184). -/
theorem State.captureTick_crit_falls {s : State} (hcrit : s.crit = true) (hfall : s.captureTick.crit = false) :
    ∃ k, s.cap = .waitLo k ∧ s.clk = false ∧ s.captureTick = s.sampleBit k := by
  have hwait := s.crit_iff.mp hcrit
  rcases s.captureTick_cases with ⟨hc, _⟩ | ⟨_, hc, _⟩ | ⟨_, _, _, e⟩ | ⟨k, hc, hclk, e⟩ | ⟨hc, _⟩ | e
  case inr.inr.inl => simp [e, State.crit] at hfall
  case inr.inr.inr.inl => exact ⟨k, hc, hclk, e⟩
  case inr.inr.inr.inr.inr => simp [e, hcrit] at hfall
  all_goals simp [hc] at hwait

/-- The tick after `C_ENTER` is in the bit's critical section (R172, R184). -/
theorem step_crit_of_enter {s : State} {k : Fin 24} (hr : s.hostNow.rst = false) (hs : s.sync = .idle)
    (hc : s.cap = .enter k) : ∃ t, step s = .next t ∧ t.crit = true := by
  refine ⟨_, step_of_capture s hr hs (by simp [hc]) (by simp [hc]), ?_⟩
  rw [State.captureTick_of_enter (s := s.countdown) hc]
  rfl

/-- Settles O36: `crit` falls in a sample tick, which leads to `C_ENTER` of the next bit but after bit 23. -/
theorem critIsLowForOneTickBetweenBits : Obligations.CritIsLowForOneTickBetweenBits := by
  intro s t h hr hcrit ht hfall
  have hwait := s.crit_iff.mp hcrit
  have hi : s.cap ≠ .idle := fun hc => by simp [hc] at hwait
  have ha : s.cap ≠ .armed := fun hc => by simp [hc] at hwait
  have hs := h.sync_idle hi
  rw [step_of_capture s hr hs hi ha, Host.Outcome.next.injEq] at ht
  subst ht
  obtain ⟨k, hc, hclk, e⟩ := State.captureTick_crit_falls (s := s.countdown) hcrit hfall
  refine ⟨k, hc, hclk, ?_⟩
  rw [e, State.sampleBit_eq]
  by_cases hk : k = 23
  · exact .inl ⟨hk, if_pos hk⟩
  · exact .inr ⟨hk, if_neg hk, fun hr' => step_crit_of_enter hr' hs (if_neg hk)⟩

/-! ## The completion step -/

/-- Settles O27: the settle delay ends in the completion step, and nothing happens before. -/
theorem completionWritesTheMeasurement : Obligations.CompletionWritesTheMeasurement := by
  refine fun s hs hc => ⟨fun hb => ?_, fun hb => ?_⟩ <;> rw [exec_capture_of_sync_idle hs]
  · rw [State.captureTick_of_unsettled hc hb]
  · rw [s.captureTick_of_settled hc hb]
    rfl

/-! ## READ_VALUE and its capture -/

/-- Settles O28: after the trigger, and in its edge tick, the two operations are the same tick. -/
theorem readValueGoesOnWithItsCapture : Obligations.ReadValueGoesOnWithItsCapture := by
  refine ⟨fun s hs hc ha => ⟨_, exec_readValue_of_capture hs hc ha, exec_capture_of_sync_idle hs⟩,
    fun s hs => ⟨exec_readValue_of_search hs, exec_capture_of_search hs⟩,
    fun s hs hc => ?_, fun s hs ha he => ?_, fun s hs ha he => ⟨s.captureStart, ?_, ?_⟩⟩
  · rw [exec_capture_of_sync_idle hs, State.captureTick_of_idle hc]
  · rw [exec_capture_of_sync_idle hs, State.captureTick_of_armed ha, he]
    rfl
  · rw [exec_capture_of_sync_idle hs, State.captureTick_of_armed ha, if_pos he]
  · rw [exec_readValue_of_armed hs ha, State.armedTick_of_edge he]

/-! ## What READ_VALUE and CAPTURE leave -/

/-- READ_VALUE and CAPTURE are the acceptance, a tick of the armed trigger, a tick of the capture, or nothing. -/
theorem exec_reading_cases {i : Instr} {s t : State} (hi : i = .readValue ∨ i = .capture) (ht : exec i s = .next t) :
    (s.isIdle = true ∧ t = s.acceptReadValue) ∨ (s.cap = .armed ∧ t = s.armedTick) ∨ t = s.captureTick ∨ t = s := by
  rcases hi with rfl | rfl
  · rw [exec_readValue, Host.Outcome.next.injEq] at ht
    split_ifs at ht with hidle hs ha
    · exact .inl ⟨hidle, ht.symm⟩
    · exact .inr (.inl ⟨ha, ht.symm⟩)
    · exact .inr (.inr (.inl ht.symm))
    · exact .inr (.inr (.inr ht.symm))
  · rw [exec_capture, Host.Outcome.next.injEq] at ht
    split_ifs at ht
    · exact .inr (.inr (.inl ht.symm))
    · exact .inr (.inr (.inr ht.symm))

/-- But at the trigger and in sample ticks a capture leaves the frame and the accumulator (R171, R175, R176). -/
theorem State.captureTick_frame {s : State} (ha : s.cap ≠ .armed) (hn : ∀ k, s.cap = .waitLo k → s.clk = true) :
    s.captureTick.raw = s.raw ∧ s.captureTick.acc = s.acc := by
  rcases s.captureTick_cases with ⟨hc, _⟩ | ⟨_, _, e⟩ | ⟨_, _, _, e⟩ | ⟨k, hc, hclk, _⟩ | ⟨_, _, e⟩ | e
  case inl => exact absurd hc ha
  case inr.inr.inr.inl => simp [hn k hc] at hclk
  all_goals rw [e]; exact ⟨rfl, rfl⟩

/-- Settles O29: the acceptance, the trigger and the capture one by one. -/
theorem readingLeavesTheSearchSide : Obligations.ReadingLeavesTheSearchSide := by
  intro i s t hi ht
  rcases exec_reading_cases hi ht with ⟨hidle, rfl⟩ | ⟨ha, rfl⟩ | rfl | rfl
  · refine ⟨by simp, fun _ => ⟨rfl, rfl, fun hb => ?_⟩, fun _ _ => ⟨rfl, rfl⟩, fun _ => rfl⟩
    simp [State.busy, hidle] at hb
  · obtain ⟨hmag, hstd, hvalid⟩ := s.armedTick_measurement
    exact ⟨by simp [s.armedTick_searchSide], fun _ => ⟨hmag, hstd, fun _ => hvalid⟩,
      fun hn => absurd ha hn, fun hn => absurd ha hn⟩
  · refine ⟨by simp [s.captureTick_searchSide], fun hn => ?_, State.captureTick_frame, s.captureTick_power⟩
    obtain ⟨hmag, hstd, hvalid⟩ := s.captureTick_measurement hn
    exact ⟨hmag, hstd, fun _ => hvalid⟩
  · simp

end Sys2Proof.Machine

/-! The arithmetic of DECODE (spec/42_frame_decoder.md R190 to R195): the value as an integer, and its range. -/

namespace Sys2Proof.Machine

/-- One halving, and a second one for Inch (R191, R192). -/
theorem halved_toNat (acc : Half) (inch : Level) :
    (halved acc inch).toNat = if inch then acc.toNat / 2 / 2 else acc.toNat / 2 := by
  cases inch
  · exact halved_mm_toNat acc
  · rw [halved_inch_toNat, if_pos rfl, Nat.div_div_eq_div_mul]

/-- A halved count has no sign bit, so it is a positive number in two's complement (R194). -/
theorem halved_toInt (acc : Half) (inch : Level) : (halved acc inch).toInt = (halved acc inch).toNat :=
  BitVec.toInt_eq_toNat_of_lt (by have := halved_toNat_lt acc inch; omega)

/-- The sign is applied to the halved count, whose negation does not overflow (R193, R194). -/
theorem decodeMagnitude_toInt (acc : Half) (neg : Bool) (inch : Level) :
    (decodeMagnitude acc neg inch).toInt = (if neg then -1 else 1) * ((halved acc inch).toNat : Int) := by
  cases neg
  · simp [halved_toInt]
  · have hmin : halved acc inch ≠ BitVec.intMin 16 := decodeMagnitude_ne_min acc false inch
    rw [decodeMagnitude_neg, BitVec.toInt_neg_of_ne_intMin hmin, halved_toInt]
    simp

/-- The sign does not change the size. -/
theorem decodeMagnitude_natAbs (acc : Half) (neg : Bool) (inch : Level) :
    (decodeMagnitude acc neg inch).toInt.natAbs = (halved acc inch).toNat := by
  rw [decodeMagnitude_toInt]
  cases neg <;> simp

/-- The sign of a halved count of 0 is lost (R195). -/
theorem decodeMagnitude_of_halved_zero {acc : Half} {inch : Level} (h : (halved acc inch).toNat = 0) (neg : Bool) :
    decodeMagnitude acc neg inch = 0#16 := by
  have hzero : halved acc inch = 0#16 := BitVec.eq_of_toNat_eq h
  cases neg
  · exact hzero
  · rw [decodeMagnitude_neg, hzero, BitVec.neg_zero]

/-- Settles O37: the halvings divide the count, and the sign multiplies the quotient. -/
theorem decodeHalvesThenAppliesTheSign : Obligations.DecodeHalvesThenAppliesTheSign := by
  refine fun acc neg inch => ⟨?_, Nat.div_div_eq_div_mul .., by decide⟩
  rw [decodeMagnitude_toInt, halved_toNat]

/-- Settles O38: the size is that of the halved count, at most half or a quarter of 65535. -/
theorem decodeStaysInRange : Obligations.DecodeStaysInRange := by
  refine ⟨exec_decode, fun acc neg inch => ⟨?_, decodeMagnitude_ne_min acc neg inch, fun hsmall => ?_⟩⟩
  · have hacc := acc.isLt
    rw [decodeMagnitude_natAbs, halved_toNat]
    split <;> omega
  · refine decodeMagnitude_of_halved_zero ?_ neg
    rw [halved_toNat]
    split_ifs at hsmall ⊢ <;> omega

end Sys2Proof.Machine

/-! The CaptureCoordinator (spec/43_capture_coordinator.md R210 to R226): a busy block ignores the command, because no
operation reads what the host presents; the arming of the trigger, and a tick of the armed trigger. -/

namespace Sys2Proof.Machine

/-! ## No operation reads the host's ports -/

/-- The same state with another host. -/
def State.withHost (s : State) (f : Feed HostIn) : State := { s with host := f }

section
variable (s : State) (f : Feed HostIn)

@[simp] theorem State.withHost_sync : (s.withHost f).sync = s.sync := rfl
@[simp] theorem State.withHost_cap : (s.withHost f).cap = s.cap := rfl
@[simp] theorem State.withHost_clk : (s.withHost f).clk = s.clk := rfl
@[simp] theorem State.withHost_isIdle : (s.withHost f).isIdle = s.isIdle := rfl
@[simp] theorem State.withHost_acceptReadValue :
    (s.withHost f).acceptReadValue = s.acceptReadValue.withHost f := rfl

/-- Another host passes through a choice that does not look at it. -/
@[simp] theorem State.withHost_ite (c : Prop) [Decidable c] (t : State) :
    (if c then s else t).withHost f = if c then s.withHost f else t.withHost f :=
  apply_ite (State.withHost · f) c s t

@[simp] theorem State.withHost_startPass : (s.withHost f).startPass = s.startPass.withHost f := by
  simp only [State.startPass, State.withHost_ite]
  rfl

@[simp] theorem State.withHost_acceptFindGap : (s.withHost f).acceptFindGap = s.acceptFindGap.withHost f :=
  State.withHost_startPass { s with syncResult := .noResult, po := .running s.params.tPowerOff } f

@[simp] theorem State.withHost_syncWaitHigh : (s.withHost f).syncWaitHigh = s.syncWaitHigh.withHost f := by
  simp only [State.syncWaitHigh, State.withHost_ite, State.withHost_clk, State.withHost_sync]
  cases s.sync <;> rfl

@[simp] theorem State.withHost_syncWaitLow : (s.withHost f).syncWaitLow = s.syncWaitLow.withHost f := by
  simp only [State.syncWaitLow, State.withHost_ite, State.withHost_clk, State.withHost_sync]
  cases s.sync <;> rfl

@[simp] theorem State.withHost_passTick (w : State) :
    (s.withHost f).passTick (w.withHost f) = (s.passTick w).withHost f := by
  simp only [State.passTick, State.withHost_ite]
  rfl

@[simp] theorem State.withHost_searchTick : (s.withHost f).searchTick = s.searchTick.withHost f := by
  simp only [State.searchTick, State.withHost_sync, State.withHost_syncWaitHigh, State.withHost_syncWaitLow,
    State.withHost_passTick]
  cases s.sync with
  | idle | passHi | passLo | final => rfl
  | retry | prepos =>
    simp only [State.withHost_ite, ← State.withHost_startPass]
    rfl

@[simp] theorem State.withHost_armedTick : (s.withHost f).armedTick = s.armedTick.withHost f := by
  simp only [State.armedTick, State.withHost_ite]
  rfl

@[simp] theorem State.withHost_sampleBit (k : Fin 24) : (s.withHost f).sampleBit k = (s.sampleBit k).withHost f := by
  simp only [State.sampleBit_eq]
  rfl

@[simp] theorem State.withHost_capWaitHigh : (s.withHost f).capWaitHigh = s.capWaitHigh.withHost f := by
  simp only [State.capWaitHigh, State.withHost_ite, State.withHost_clk, State.withHost_cap]
  cases s.cap <;> rfl

@[simp] theorem State.withHost_capWaitLow : (s.withHost f).capWaitLow = s.capWaitLow.withHost f := by
  simp only [State.capWaitLow, State.withHost_ite, State.withHost_clk, State.withHost_cap, State.withHost_sampleBit]
  cases s.cap <;> rfl

@[simp] theorem State.withHost_captureTick : (s.withHost f).captureTick = s.captureTick.withHost f := by
  simp only [State.captureTick, State.withHost_cap, State.withHost_capWaitHigh, State.withHost_capWaitLow]
  cases s.cap with
  | idle | enter | waitHi | waitLo => rfl
  | armed | settle =>
    simp only [State.withHost_ite]
    rfl

end

/-- Every operation commutes with a change of the host: only the dispatch of a tick reads its ports (R51, R223). -/
theorem exec_withHost {i : Instr} {s t : State} (f : Feed HostIn) (h : exec i s = .next t) :
    exec i (s.withHost f) = .next (t.withHost f) := by
  cases i <;> cases h
  case findGap | readValue | capture | waitHigh | waitLow => simp
  all_goals rfl

/-! ## A busy block ignores the command (R212) -/

/-- The same host, but for the code `c` in this tick. -/
def State.presentCode (s : State) (c : CmdCode) : State :=
  s.withHost (Feed.listing [⟨⟨false, c⟩, 1⟩] s.hostNext)

@[simp] theorem State.presentCode_hostNow (s : State) (c : CmdCode) : (s.presentCode c).hostNow = ⟨false, c⟩ := rfl
@[simp] theorem State.presentCode_hostNext (s : State) (c : CmdCode) : (s.presentCode c).hostNext = s.hostNext := rfl
@[simp] theorem State.presentCode_isIdle (s : State) (c : CmdCode) : (s.presentCode c).isIdle = s.isIdle := rfl

/-- The dispatch of a busy tick without reset does not read the code (R223). -/
theorem State.presentCode_operation {s : State} (hb : s.busy = true) (hr : s.hostNow.rst = false) (c : CmdCode) :
    (s.presentCode c).operation = s.operation := by
  have hi : s.isIdle = false := by simpa [State.busy] using hb
  simp only [State.operation, State.presentCode_hostNow, State.presentCode_isIdle, hi, hr]
  rfl

theorem State.presentCode_beginTick {s : State} (hr : s.hostNow.rst = false) (c : CmdCode) :
    (s.presentCode c).beginTick = s.beginTick.withHost (s.presentCode c).host := by
  simp only [State.beginTick, State.presentCode_hostNow, hr]
  rfl

/-- Settles O5: both ticks run the same operation, which does not read the host's ports, and the host goes on alike. -/
theorem busyBlockIgnoresTheCommand : Obligations.BusyBlockIgnoresTheCommand := by
  intro s c hb hr
  obtain ⟨t, ht, hstep⟩ := step_eq_operation s
  obtain ⟨u, hu, hstep'⟩ := step_eq_operation (s.presentCode c)
  rw [State.presentCode_operation hb hr, State.presentCode_beginTick hr, exec_withHost _ ht,
    Host.Outcome.next.injEq] at hu
  subst hu
  change step s = step (s.presentCode c)
  rw [hstep, hstep', hr]
  rfl

/-! ## The trigger (R213 to R220) -/

theorem State.irqEn_iff (s : State) : s.irqEn = true ↔ s.cap = .armed := by
  simp [State.irqEn]

/-- Settles O23: an idle block accepts the command, and `irq_en` shows `C_ARMED`. -/
theorem readValueArmsTheTrigger : Obligations.ReadValueArmsTheTrigger := by
  refine ⟨fun s hb => ⟨s.acceptReadValue, ?_, rfl, s.acceptReadValue.irqEn_iff.mpr rfl⟩, State.irqEn_iff⟩
  rw [exec_readValue, if_pos (s.busy_eq_false_iff.mp hb)]

theorem zext24_eq_ite (d : Level) : zext24 d = if d then 1#24 else 0#24 := by cases d <;> rfl

theorem zext16_eq_ite (d : Level) : zext16 d = if d then 1#16 else 0#16 := by cases d <;> rfl

theorem State.armedTick_of_timeout {s : State} (he : s.fallingEdge = false) (hf : s.cpo.fired = true) :
    s.armedTick = s.armedTimeout := by
  simp [State.armedTick, he, hf]

theorem State.armedTick_of_quiet {s : State} (he : s.fallingEdge = false) (hf : s.cpo.fired = false) :
    s.armedTick = s := by
  simp [State.armedTick, he, hf]

/-- Settles O24: the three outcomes of a tick of the armed trigger. -/
theorem armedTriggerPrefersTheEdge : Obligations.ArmedTriggerPrefersTheEdge := by
  refine fun s hs ha => ⟨fun he => ?_, fun he hf => ?_, fun he hf => ?_⟩ <;> rw [exec_readValue_of_armed hs ha]
  · rw [State.armedTick_of_edge he, State.captureStart, zext24_eq_ite, zext16_eq_ite]
  · rw [State.armedTick_of_timeout he hf]
    rfl
  · rw [State.armedTick_of_quiet he hf]

end Sys2Proof.Machine

/-! Reset, the constants of the state, and the two waits for the clock that can go on for ever
(spec/70_reset_and_hazards.md R280 to R290). -/

namespace Sys2Proof.Machine

/-! ## The constants of the state (R285) -/

section
variable {s : State}

theorem State.syncWaitHigh_constants : s.syncWaitHigh.params = s.params ∧ s.syncWaitHigh.wave = s.wave := by
  rcases s.syncWaitHigh_cases with ⟨_, k, _, e⟩ | ⟨_, _, e⟩ | ⟨_, e⟩ <;> simp [e]

theorem State.syncWaitLow_constants : s.syncWaitLow.params = s.params ∧ s.syncWaitLow.wave = s.wave := by
  rcases s.syncWaitLow_cases with ⟨_, k, _, e⟩ | ⟨_, e⟩ <;> simp [e]

/-- What the decoder's WAIT_HIGH can do (R113, R173). -/
theorem State.capWaitHigh_cases (s : State) :
    (∃ k, s.cap = .waitHi k ∧ s.capWaitHigh = { s with cap := .waitLo k }) ∨ s.capWaitHigh = s := by
  by_cases h : s.clk = false ∨ ∀ k, s.cap ≠ .waitHi k
  · exact .inr (State.capWaitHigh_unchanged h)
  · obtain ⟨hclk, k, hk⟩ : s.clk = true ∧ ∃ k, s.cap = .waitHi k := by simpa using h
    exact .inl ⟨k, hk, State.capWaitHigh_of_waitHi hk hclk⟩

/-- What the decoder's WAIT_LOW can do (R114, R174). -/
theorem State.capWaitLow_cases (s : State) :
    (∃ k, s.cap = .waitLo k ∧ s.capWaitLow = s.sampleBit k) ∨ s.capWaitLow = s := by
  by_cases h : s.clk = true ∨ ∀ k, s.cap ≠ .waitLo k
  · exact .inr (State.capWaitLow_unchanged h)
  · obtain ⟨hclk, k, hk⟩ : s.clk = false ∧ ∃ k, s.cap = .waitLo k := by simpa using h
    exact .inl ⟨k, hk, State.capWaitLow_of_waitLo hk hclk⟩

theorem State.capWaitHigh_constants : s.capWaitHigh.params = s.params ∧ s.capWaitHigh.wave = s.wave := by
  rcases s.capWaitHigh_cases with ⟨k, _, e⟩ | e <;> simp [e]

theorem State.capWaitLow_constants : s.capWaitLow.params = s.params ∧ s.capWaitLow.wave = s.wave := by
  rcases s.capWaitLow_cases with ⟨k, _, e⟩ | e <;> simp [e]

theorem State.beginTick_constants : s.beginTick.params = s.params ∧ s.beginTick.wave = s.wave := by
  unfold State.beginTick
  split <;> simp

end

/-- No operation writes a parameter or the waveform, RST included (R285). -/
theorem exec_constants {i : Instr} {s t : State} (h : exec i s = .next t) :
    t.params = s.params ∧ t.wave = s.wave := by
  cases i <;> cases h
  case findGap => split <;> simp
  case readValue => split_ifs <;> simp
  case capture => split <;> simp
  case waitHigh =>
    split
    · exact State.capWaitHigh_constants
    · exact State.syncWaitHigh_constants
  case waitLow =>
    split
    · exact State.capWaitLow_constants
    · exact State.syncWaitLow_constants
  all_goals exact ⟨rfl, rfl⟩

/-- A step is an operation, and what stands beside it writes no constant. -/
theorem step_constants {s t : State} (h : step s = .next t) : t.params = s.params ∧ t.wave = s.wave := by
  obtain ⟨u, hu, hstep⟩ := step_eq_operation s
  obtain rfl := Host.Outcome.next.inj (h.symm.trans hstep)
  obtain ⟨hparams, hwave⟩ := exec_constants hu
  obtain ⟨hparams', hwave'⟩ := s.beginTick_constants
  exact ⟨hparams.trans hparams', hwave.trans hwave'⟩

/-- Settles O9: no operation writes a constant, and a step is one operation. -/
theorem parametersNeverChange : Obligations.ParametersNeverChange :=
  ⟨fun _ _ => step_constants, fun _ _ _ => exec_constants⟩

/-! ## Reset (R280, R283) -/

/-- Settles O2: a reset tick is RST, and then the environment's next tick. -/
theorem resetTickGivesTheResetState : Obligations.ResetTickGivesTheResetState :=
  ⟨step_of_rst, exec_rst⟩

/-! ## Edges along a run -/

/-- A run ends with a tick. -/
theorem After.last {n : Nat} {s t : State} (h : After (n + 1) s t) : ∃ u, After n s u ∧ step u = .next t := by
  induction n generalizing s with
  | zero =>
    obtain ⟨t', ht', rfl⟩ := h
    exact ⟨s, rfl, ht'⟩
  | succ n ih =>
    obtain ⟨v, hv, hvt⟩ := h
    obtain ⟨u, hu, hut⟩ := ih hvt
    exact ⟨u, ⟨v, hv, hu⟩, hut⟩

/-- Within a run without reset a falling edge is a high clock and then a low one (R43, R45). -/
theorem After.fallingEdge_iff {n : Nat} {s t : State} (hrst : s.noReset) (h : After (n + 1) s t) :
    t.fallingEdge = true ↔ (s.linesAt n).clk = true ∧ (s.linesAt (n + 1)).clk = false := by
  obtain ⟨u, hu, hut⟩ := h.last
  have hprev : t.clkPrev = (s.linesAt n).clk :=
    (clkPrevFollowsTheClock u t (hrst.after hu) hut).trans (congrArg LineIn.clk hu.linesNow)
  have hclk : t.clk = (s.linesAt (n + 1)).clk := congrArg LineIn.clk h.linesNow
  rw [State.fallingEdge, hprev, hclk, Bool.and_eq_true, Bool.not_eq_true']

/-! ## The armed block has no timeout (R218, R289) -/

/-- A tick of the armed trigger without an edge does nothing but what the power-off timer asks for (R218). -/
theorem State.armedTick_of_no_edge {s : State} (he : s.fallingEdge = false) :
    s.armedTick = { s with power := if s.cpo.fired then .off else s.power
                           cpo := if s.cpo.fired then .stopped else s.cpo } := by
  cases hf : s.cpo.fired
  · exact State.armedTick_of_quiet he hf
  · exact State.armedTick_of_timeout he hf

/-- `t` is armed, `n` ticks after `s`, with no edge in between: until the power-off timer of `s` is over it runs on
and `power` stands, and from then on it is stopped and `power` is off. -/
structure StillArmed (s : State) (n : Nat) (t : State) : Prop where
  sync : t.sync = .idle
  cap : t.cap = .armed
  running : ∀ d, s.cpo = .running d → n < d → t.cpo = .running (d - n) ∧ t.power = s.power
  timedOut : ∀ d, s.cpo = .running d → 1 ≤ d → d ≤ n → t.cpo = .stopped ∧ t.power = .off

theorem StillArmed.start {s : State} (hs : s.sync = .idle) (ha : s.cap = .armed) : StillArmed s 0 s where
  sync := hs
  cap := ha
  running _ hd _ := ⟨hd, rfl⟩
  timedOut _ _ hpos hzero := absurd hpos (by omega)

/-- One more tick without an edge. -/
theorem StillArmed.next {s t : State} {n : Nat} (h : StillArmed s n t) (hr : t.hostNow.rst = false)
    (he : t.fallingEdge = false) : ∃ u, step t = .next u ∧ StillArmed s (n + 1) u := by
  refine ⟨_, step_of_armed t hr h.sync h.cap, ?_⟩
  rw [State.armedTick_of_no_edge (s := t.countdown) he]
  refine ⟨h.sync, h.cap, fun d hd hlt => ?_, fun d hd hpos hle => ?_⟩
  · obtain ⟨hcpo, hpower⟩ := h.running d hd (by omega)
    have hleft : d - (n + 1) ≠ 0 := by omega
    simp [hcpo, hpower, hleft, Nat.sub_sub]
  · rcases Nat.lt_or_eq_of_le hle with hlt | rfl
    · obtain ⟨hcpo, hpower⟩ := h.timedOut d hd hpos (by omega)
      simp [hcpo, hpower]
    · obtain ⟨hcpo, -⟩ := h.running (n + 1) hd (by omega)
      simp [hcpo]

/-- An armed block stays armed as long as no tick is a falling edge. -/
theorem Reaches.stillArmed {s : State} (hrst : s.noReset) (hs : s.sync = .idle) (ha : s.cap = .armed) {n : Nat}
    (hfirst : 0 < n → s.fallingEdge = false)
    (hlater : ∀ j, j + 1 < n → ¬((s.linesAt j).clk = true ∧ (s.linesAt (j + 1)).clk = false)) :
    Reaches s n (StillArmed s n) := by
  induction n with
  | zero => exact .start (.start hs ha)
  | succ n ih =>
    have hn := ih (fun _ => hfirst (by omega)) (fun j hj => hlater j (by omega))
    refine hn.next fun t ht h => h.next (hrst.after ht) ?_
    cases n with
    | zero => exact (after_zero s t).mp ht ▸ hfirst (by omega)
    | succ m => exact Bool.eq_false_iff.mpr fun he => hlater m (by omega) ((ht.fallingEdge_iff hrst).mp he)

/-- Settles O33: no edge leaves the block armed, and only the power-off timer acts. -/
theorem armedBlockWaitsWithoutTimeout : Obligations.ArmedBlockWaitsWithoutTimeout := by
  intro s n hs ha hrst hfirst hlater
  obtain ⟨t, ht, h⟩ := Reaches.stillArmed hrst hs ha hfirst hlater
  refine ⟨t, ht, h.sync, h.cap, by simp [State.busy_iff, h.cap], fun d hd hpos hle => ?_, fun d hd hlt => ?_⟩
  · simp [State.powered, (h.timedOut d hd hpos hle).2]
  · simp [State.powered, (h.running d hd hlt).2]

/-! ## The decoder's waits have no timeout (R183, R290) -/

/-- The state waits for the level that `clk` is not. -/
def CapReg.waitsAt (c : CapReg) (clk : Level) : Prop :=
  ∃ k, (c = .waitHi k ∧ clk = false) ∨ (c = .waitLo k ∧ clk = true)

theorem State.captureTick_of_waitsAt {s : State} (h : s.cap.waitsAt s.clk) : s.captureTick = s := by
  obtain ⟨k, ⟨hk, hclk⟩ | ⟨hk, hclk⟩⟩ := h <;> rw [State.captureTick, hk]
  · exact State.capWaitHigh_unchanged (.inl hclk)
  · exact State.capWaitLow_unchanged (.inl hclk)

/-- A tick with the other level leaves the wait. -/
theorem Inv.step_of_waitsAt {s : State} (h : Inv s) (hr : s.hostNow.rst = false) (hw : s.cap.waitsAt s.clk) :
    ∃ t, step s = .next t ∧ Inv t ∧ t.cap = s.cap := by
  have hcap : s.cap ≠ .idle ∧ s.cap ≠ .armed := by
    obtain ⟨k, ⟨hk, _⟩ | ⟨hk, _⟩⟩ := hw <;> simp [hk]
  have hstep := step_of_capture s hr (h.sync_idle hcap.1) hcap.1 hcap.2
  refine ⟨_, hstep, everyStepKeepsTheInvariant s _ h hstep, ?_⟩
  rw [State.captureTick_of_waitsAt (s := s.countdown) hw]
  rfl

/-- A wait goes on as long as the clock has the other level. -/
theorem Reaches.waitsAt {s : State} (h : Inv s) (hrst : s.noReset) {n : Nat}
    (hw : ∀ j, j < n → s.cap.waitsAt (s.linesAt j).clk) : Reaches s n fun t => Inv t ∧ t.cap = s.cap := by
  refine (Reaches.start (p := fun t => Inv t ∧ t.cap = s.cap) ⟨h, rfl⟩).hold (Nat.zero_le n) ?_
  rintro j - hj t ht ⟨hinv, hcap⟩
  rw [← hcap]
  exact hinv.step_of_waitsAt (hrst.after ht) (by rw [hcap, State.clk, ht.linesNow]; exact hw j hj)

/-- In a bit's critical section the block is busy, the caliper counts as powered, and no timer runs (R29, R53). -/
theorem Inv.of_crit {s : State} (h : Inv s) (hc : s.crit = true) :
    s.busy = true ∧ s.powered = true ∧
      s.po = .stopped ∧ s.al = .stopped ∧ s.sl = .stopped ∧ s.cpo = .stopped ∧ s.bw = .stopped := by
  obtain ⟨k, hk⟩ := s.crit_iff.mp hc
  have hidle : s.cap ≠ .idle := by rcases hk with hk | hk <;> simp [hk]
  have harmed : s.cap ≠ .armed := by rcases hk with hk | hk <;> simp [hk]
  have hsettle : s.cap ≠ .settle := by rcases hk with hk | hk <;> simp [hk]
  have hbit : s.cap.waitingFor ≠ none := by rcases hk with hk | hk <;> simp [hk, CapReg.waitingFor]
  have hs := h.sync_idle hidle
  have hpass : s.sync.inPass = false := by rw [hs]; rfl
  exact ⟨s.busy_iff.mpr fun hi => hidle hi.2, by simp [State.powered, h.captureOn hbit],
    h.poElse hpass (by simp [hs]), h.alElse hpass, h.slElse (by simp [hs]) (by simp [hs]), h.cpoElse harmed,
    h.bwElse hsettle⟩

/-- Settles O34: the wait goes on, and the invariant says what stands in it. -/
theorem captureWaitsWithoutTimeout : Obligations.CaptureWaitsWithoutTimeout := by
  intro s n k h hrst hw
  obtain ⟨t, ht, hinv, hcap⟩ := Reaches.waitsAt h hrst (n := n) fun j hj =>
    ⟨k, hw.imp (And.imp_right (· j hj)) (And.imp_right (· j hj))⟩
  have hcrit : t.crit = true := t.crit_iff.mpr ⟨k, hcap ▸ hw.imp And.left And.left⟩
  obtain ⟨hbusy, hpowered, htimers⟩ := hinv.of_crit hcrit
  exact ⟨t, ht, hcap, hbusy, hcrit, hpowered, htimers⟩

end Sys2Proof.Machine
